-- ==== Sys2Proof/Word.lean ====
section
/-! DEFINITION. The word types of the machine: what the spec treats as strings of bits
(00_scope.md section 5.1: bit N-1 is the most significant, bit 0 the least). -/

namespace Sys2Proof

/-- `bits(64)`: the register, the general registers, the program counter. -/
abbrev Word64 := BitVec 64

/-- `bits(32)`: one A64 instruction word (R62), and the AArch32 view IFSR (R12). -/
abbrev Word32 := BitVec 32

/-- One byte of memory. -/
abbrev Byte := BitVec 8

/-- Register number `t` of `<Xt>`: the `Rt` field, an unsigned 5-bit number (R64). -/
abbrev RegNum := BitVec 5

end Sys2Proof
end

