-- ==== Sys2Proof/Config.lean ====
section
/-! DEFINITION. What an implementation fixes (the parameters of 00_scope.md R5 that never change)
and the free values of the model.

`Config` is a plain structure that State carries in its field `cfg`, which no step changes: a
statement about every state is then a statement about every configuration, as D2 asks
("A claim holds for every value unless it states a premise"). -/

namespace Sys2Proof

/-- The Exception levels, the values of `PSTATE.EL` (R37). -/
inductive ExceptionLevel where
  | el0 | el1 | el2 | el3
  deriving DecidableEq, Repr

/-- The parameters of R5 that are fixed for the life of the machine. -/
structure Config where
  /-- FEAT_AA32EL1: the register is present only with it (R2). -/
  featAA32EL1 : Bool
  /-- FEAT_RAS: with it the parity or ECC codes are reserved (R24, R31). -/
  featRAS : Bool
  /-- HAVE_EL2 (R3, R92). -/
  haveEL2 : Bool
  /-- HAVE_EL3 (R3, R92). -/
  haveEL3 : Bool
  /-- EL1_AARCH32_CAPABLE (R3); a parameter apart from FEAT_AA32EL1 (N35). -/
  el1AArch32Capable : Bool
  /-- EXT_CLASSIFICATION: whether External aborts are classified by ExT (R19). -/
  extClassification : Bool
  /-- RES0_STORAGE: bit i is 1 where a RES0 bit at position i is storage, 0 where it is
  hardwired (R35). -/
  res0Storage : Word64
  /-- BASE: the address of the first word of a program (R53). -/
  base : Word64
  deriving DecidableEq, Repr

/-- UNKNOWN_64(): the n-th draw of an UNKNOWN value of 64 bits (R36). A FREE VALUE: no body, so
nothing can be proved of it (log 3). -/
opaque Config.unknown64 : Nat → Word64

/-- FEAT_RAS of the implementation `State.reset` stands for. A free value (log 2). -/
opaque Config.chosenFeatRAS : Bool

/-- EL1_AARCH32_CAPABLE of the implementation `State.reset` stands for. A free value (log 2). -/
opaque Config.chosenEl1AArch32Capable : Bool

/-- EXT_CLASSIFICATION of the implementation `State.reset` stands for. A free value (log 2). -/
opaque Config.chosenExtClassification : Bool

/-- RES0_STORAGE of the implementation `State.reset` stands for. A free value (log 2). -/
opaque Config.chosenRes0Storage : Word64

/-- The configuration of `State.reset`. DESIGN CHOICE (log 2): the register is present and EL2 and
EL3 exist, the convention of 95_test_vectors.md; BASE is 0; the rest are free values. -/
def Config.ofReset : Config where
  featAA32EL1 := true
  featRAS := Config.chosenFeatRAS
  haveEL2 := true
  haveEL3 := true
  el1AArch32Capable := Config.chosenEl1AArch32Capable
  extClassification := Config.chosenExtClassification
  res0Storage := Config.chosenRes0Storage
  base := 0

/-- The highest implemented Exception level, the one a reset enters. PRESUMED (GK17, log 6). -/
def Config.highestLevel (c : Config) : ExceptionLevel :=
  if c.haveEL3 then .el3 else if c.haveEL2 then .el2 else .el1

end Sys2Proof
end

