-- ==== Sys2Proof/Machine/State.lean ====
section
/-! DEFINITION. The state of the machine as plain data (10_state.md section 9), the reasons a step
can stop, and the state right after reset. -/

namespace Sys2Proof.Machine

/-- Why the machine stops with a fault: the two abnormal outcomes of 00_scope.md section 5.3. Both
are terminal and write no state (R80, R82, R84; log 1). -/
inductive Fault where
  /-- `UNDEFINED` (R80, R81): raised by either instruction when FEAT_AA32EL1 is not implemented, at
  EL0, and at EL1 when bit 0 of NVx() is 0. Safe: the spec defines no step after it. -/
  | undefined
  /-- `AArch64.SystemAccessTrap(target, code)` (R82): raised by either instruction at EL1 when bit 0
  of NVx() is 1, always with target EL2 and code 0x18. Safe: the spec defines no step after it. -/
  | systemAccessTrap (target : ExceptionLevel) (code : BitVec 6)
  deriving DecidableEq, Repr

/-- Why the model gives a step no meaning. -/
inductive Refusal where
  /-- An instruction without a meaning; raised by no arm of `exec`. Safe. -/
  | notModelled (mnemonic : String)
  /-- The fetched word is none of the 64 words in scope (R66): raised by `step`. Safe: the real
  hardware may well execute it, and nothing is proved of that. -/
  | notInScope (word : Word32)
  /-- The program counter is not a multiple of 4 (R51, D29): raised by `step`. Safe. -/
  | misalignedPc (pc : Word64)
  /-- No program word stands at the program counter (R102: the spec says nothing of what the
  hardware does past the last word): raised by `step`. Safe. -/
  | noProgramWord (pc : Word64)
  deriving DecidableEq, Repr

/-- What the environment supplies for one step: the current value of `TTBCR.EAE` (R13, D8) and of
`EffectiveHCR_EL2_NVx()` (R40, D7). -/
structure EnvInput where
  eae : Bool
  hcrNVx : BitVec 3
  deriving DecidableEq, Repr

/-- Memory: (address, byte) pairs. It holds the program text only (R52, R57). -/
abbrev Memory := List Host.Cell

/-- What an address that is not listed reads as: nothing has placed a byte there, so it has no value
(DESIGN CHOICE, safe, log 12). -/
def unlistedByte : Option Byte := none

/-- The canonical form of a memory: every address within 64 bits, and addresses strictly rising. (No
entry can equal what an unlisted address reads as, since that is no byte.) -/
def Memory.wf : Memory → Bool
  | [] => true
  | (a, _) :: rest => decide (a < 2 ^ 64) && rest.all (fun c => decide (a < c.1)) && Memory.wf rest

/-- The machine: all the state the spec gives it (INVENTORY.md, State). -/
structure State where
  /-- IFSR32_EL2_raw (R10); its bits [31:0] are also AArch32 IFSR (R12). -/
  ifsr32Raw : Word64
  /-- The general registers X0 to X30 (R38). -/
  x : Vector Word64 31
  /-- The address of the instruction being executed (R39). -/
  pc : Word64
  /-- PSTATE.EL, the current Exception level (R37). -/
  el : ExceptionLevel
  /-- The controls behind EffectiveHCR_EL2_NVx(), as the environment supplies them; read through
  `effectiveNVx` (R40). -/
  hcrNVx : BitVec 3
  /-- The current value of TTBCR.EAE (R13). -/
  eae : Bool
  /-- The environment's inputs for the steps to come, the next one first (log 8). -/
  upcoming : List EnvInput
  /-- How many UNKNOWN values have been drawn (R36, log 3). -/
  draws : Nat
  /-- The program text (R50, R57). -/
  mem : Memory
  /-- The implementation's parameters (R5), which no step changes. -/
  cfg : Config
  deriving DecidableEq, Repr

/-- The machine right after reset. The register is UNKNOWN (R42, R43), a free value; the spec gives
no other reset value (R97), and each one here is a DESIGN CHOICE or PRESUMED (log 2, 4 to 8). -/
def State.reset : State where
  ifsr32Raw := Config.unknown64 0
  x := Vector.replicate 31 0
  pc := Config.ofReset.base
  el := Config.ofReset.highestLevel
  hcrNVx := 0
  eae := false
  upcoming := []
  draws := 1
  mem := []
  cfg := Config.ofReset

end Sys2Proof.Machine
end

