-- ==== Sys2Proof/Machine/Layout.lean ====
section
/-! DEFINITION. The two field layouts of the register (R14, R15), which bits are RES0, and what an
access sees and writes there (R35).

UNVERIFIED (log 16): what a RES0 bit does is general knowledge the spec adopts (GK3, D3), as a
choice per bit that the configuration holds. -/

namespace Sys2Proof.Machine

/-- The fields of the register. -/
inductive FieldName where
  | reserved | fnv | ext | lpae
  /-- FS[4], bit [10] of the layout for EAE == 0 (R22) -/
  | fsHigh
  /-- FS[3:0] of the layout for EAE == 0 (R22) -/
  | fsLow
  /-- STATUS of the layout for EAE == 1 (R29) -/
  | status
  deriving DecidableEq, Repr

/-- One row of a layout table: bits [hi:lo]. -/
structure LayoutRow where
  hi : Nat
  lo : Nat
  field : FieldName
  deriving DecidableEq, Repr

/-- The layout for EAE == 0 (R14). -/
def layoutShort : List LayoutRow :=
  [⟨63, 17, .reserved⟩, ⟨16, 16, .fnv⟩, ⟨15, 13, .reserved⟩, ⟨12, 12, .ext⟩,
   ⟨11, 11, .reserved⟩, ⟨10, 10, .fsHigh⟩, ⟨9, 9, .lpae⟩, ⟨8, 4, .reserved⟩, ⟨3, 0, .fsLow⟩]

/-- The layout for EAE == 1 (R15). -/
def layoutLong : List LayoutRow :=
  [⟨63, 17, .reserved⟩, ⟨16, 16, .fnv⟩, ⟨15, 13, .reserved⟩, ⟨12, 12, .ext⟩,
   ⟨11, 10, .reserved⟩, ⟨9, 9, .lpae⟩, ⟨8, 6, .reserved⟩, ⟨5, 0, .status⟩]

/-- The layout that TTBCR.EAE selects (R13). -/
def layoutRows (eae : Bool) : List LayoutRow := if eae then layoutLong else layoutShort

/-- The field that holds bit `i` in a layout. -/
def fieldAt (rows : List LayoutRow) (i : Nat) : Option FieldName :=
  (rows.find? fun r => decide (r.lo ≤ i) && decide (i ≤ r.hi)).map LayoutRow.field

/-- The RES0 bits of a layout, ExT left out (R14, R15). -/
def layoutRes0 (eae : Bool) : Word64 :=
  if eae then 0xFFFFFFFFFFFEEDC0 else 0xFFFFFFFFFFFEE9F0

/-- The bits that are a field of a layout, ExT among them (R14, R15). -/
def layoutFields (eae : Bool) : Word64 :=
  if eae then 0x000000000001123F else 0x000000000001160F

/-- ExT's place in a mask (R19). -/
def extMask : Word64 := 0x0000000000001000

/-- The whole register is RES0: EL2 is absent and the condition of R3 does not hold (R35, D17;
log 17). -/
def registerIsRes0 (c : Config) : Bool :=
  !c.haveEL2 && !(c.haveEL3 && c.el1AArch32Capable)

/-- `Res0Mask(eae)` (R35). -/
def res0Mask (c : Config) (eae : Bool) : Word64 :=
  if registerIsRes0 c then BitVec.allOnes 64
  else layoutRes0 eae ||| (if c.extClassification then 0 else extMask)

/-- `Hardwired(eae)` (R35): the RES0 bits that are not storage. -/
def hardwired (c : Config) (eae : Bool) : Word64 := res0Mask c eae &&& ~~~c.res0Storage

/-- `ReadView(raw, eae)` (R35): what an MRS returns. -/
def readView (c : Config) (eae : Bool) (raw : Word64) : Word64 := raw &&& ~~~hardwired c eae

/-- `WriteMerge(raw, v, eae)` (R35): the raw value after an MSR of `v`. -/
def writeMerge (c : Config) (eae : Bool) (raw v : Word64) : Word64 :=
  (v &&& ~~~hardwired c eae) ||| (raw &&& hardwired c eae)

end Sys2Proof.Machine
end

