-- ==== Sys2Proof/Machine/Operands.lean ====
section
/-! DEFINITION. The one operand form, `X[t, 64]` (R38, R64): general registers 0 to 30, and number
31, the zero register.

UNVERIFIED (log 10): 31 registers and XZR are general knowledge the spec adopts (GK2, D11). -/

namespace Sys2Proof.Machine

/-- `x[t]` as a value: number 31 reads as 64 zero bits (R38). -/
def readX (s : State) (t : RegNum) : Word64 :=
  if h : t.toNat < 31 then s.x[t.toNat] else 0

/-- `x[t] <- v`: a write to number 31 is discarded (R38). -/
def writeX (t : RegNum) (v : Word64) (s : State) : State :=
  if h : t.toNat < 31 then { s with x := s.x.set t.toNat v } else s

end Sys2Proof.Machine
end

