-- ==== Sys2Proof/Syntax.lean ====
section
/-! DEFINITION. The instructions (30_encoding.md, 40_sysreg_access.md): one constructor per row of
spec/opcode_table.json, and the name by which they reach the register (R60, R61). -/

namespace Sys2Proof

/-- The two instructions in scope (R4). The operand `t` is the number in `<Xt>`; every value 0 to 31
is legal (R65) and 31 names XZR (R38), so the type carries the only bound there is. -/
inductive Instr where
  /-- `MRS <Xt>, IFSR32_EL2`: read the register into x[t] (R70). -/
  | mrsIfsr32El2 (t : RegNum)
  /-- `MSR IFSR32_EL2, <Xt>`: write x[t] to the register (R72). -/
  | msrIfsr32El2 (t : RegNum)
  deriving DecidableEq, Repr

/-- A point of the System register encoding space (R60): five fields, 16 bits in all. -/
structure SysRegName where
  op0 : BitVec 2
  op1 : BitVec 3
  crn : BitVec 4
  crm : BitVec 4
  op2 : BitVec 3
  deriving DecidableEq, Repr

/-- The point that names IFSR32_EL2, for reads and writes alike (R61). -/
def ifsr32El2Name : SysRegName where
  op0 := 0b11
  op1 := 0b100
  crn := 0b0101
  crm := 0b0000
  op2 := 0b001

end Sys2Proof
end

