-- ==== Sys2Proof/WellFormed.lean ====
section
/-! DEFINITION. The checks on what is handed to the machine. A term of `Instr` has no ill-formed
value (its one bound, t at most 31, is its type's); the checks are on instruction words, programs,
and the Exception level and NVx value of a launch state. -/

namespace Sys2Proof

/-- The match value of MRS <Xt>, IFSR32_EL2 (R62). -/
def mrsMatch : Word32 := 0xD53C5020

/-- The match value of MSR IFSR32_EL2, <Xt> (R63). -/
def msrMatch : Word32 := 0xD51C5020

/-- The mask of both rows (R62, R63): every bit but Rt. -/
def rowMask : Word32 := 0xFFFFFFE0

/-- The word is one of the 64 of R62 and R63 (R66), by match and mask: a second writing of what the
decoder decides by fields. -/
def wordInScope (w : Word32) : Bool :=
  w &&& rowMask == mrsMatch || w &&& rowMask == msrMatch

/-- A program a run may be made of (R51, R53, R66): it stands at a multiple of 4 and every word of
it is in scope. -/
def programWellFormed (base : Word64) (ws : List Word32) : Bool :=
  base.toNat % 4 == 0 && ws.all wordInScope

/-- The Exception level is implemented (R92): EL2 needs HAVE_EL2 and EL3 needs HAVE_EL3. -/
def Config.implementsLevel (c : Config) : ExceptionLevel → Bool
  | .el0 => true
  | .el1 => true
  | .el2 => c.haveEL2
  | .el3 => c.haveEL3

/-- The constraint on the parameter NVx (R40, D7): without EL2 its bit 0 is 0. -/
def Config.nvxAllowed (c : Config) (v : BitVec 3) : Bool :=
  c.haveEL2 || !v.getLsbD 0

/-- A configuration whose BASE is a multiple of 4 (R5, R53). -/
def Config.baseAligned (c : Config) : Bool :=
  c.base.toNat % 4 == 0

end Sys2Proof
end

