-- ==== Sys2Proof/Decode.lean ====
section
/-! DEFINITION. From bits to instructions and back (30_encoding.md): the fields of the A64 System
register move form (R62), a decoder total on any bytes that rejects by name, the encoder, and the
assembler's spelling (R67, R68).

UNVERIFIED (log 15): every bit position is general knowledge the spec adopts (GK1); the values of
op0, op1, CRn, CRm and op2 are the source's. -/

namespace Sys2Proof

/-! ## The fields of a word -/

/-- Bits [31:22] and bit [20]: the fixed bits of the System register move form (R62). -/
def sysMoveForm (w : Word32) : Bool :=
  w.extractLsb' 22 10 == 0b1101010100#10 && w.getLsbD 20

/-- Bit [21], L: 1 for a read, 0 for a write (R62, R63). -/
def readBit (w : Word32) : Bool := w.getLsbD 21

/-- The System register a word names (R60, R62): op0 is 0b1 : o0. -/
def sysRegNameOf (w : Word32) : SysRegName where
  op0 := 1#1 ++ w.extractLsb' 19 1
  op1 := w.extractLsb' 16 3
  crn := w.extractLsb' 12 4
  crm := w.extractLsb' 8 4
  op2 := w.extractLsb' 5 3

/-- Bits [4:0], Rt (R62, R64). -/
def rtOf (w : Word32) : RegNum := w.extractLsb' 0 5

/-! ## The decoder -/

/-- What a word decodes to (R66): an instruction, or a word this spec gives no meaning. -/
inductive Decoded where
  | instr (i : Instr)
  | notInScope (word : Word32)
  deriving DecidableEq, Repr

/-- The decoder of R66, total on words. -/
def decodeWord (w : Word32) : Decoded :=
  if sysMoveForm w && sysRegNameOf w == ifsr32El2Name then
    if readBit w then .instr (.mrsIfsr32El2 (rtOf w)) else .instr (.msrIfsr32El2 (rtOf w))
  else .notInScope w

/-- Four bytes, lowest address first, as an instruction word: little-endian (R50, GK11). -/
def wordOfBytes (b0 b1 b2 b3 : Byte) : Word32 := b3 ++ b2 ++ b1 ++ b0

/-- What a run of bytes decodes to: an instruction and the bytes after it, or why there is none. -/
inductive DecodedBytes where
  | instr (i : Instr) (rest : List Byte)
  | notInScope (word : Word32)
  /-- fewer than the four bytes of an instruction word -/
  | truncated (available : Nat)
  deriving DecidableEq, Repr

/-- The decoder on bytes, total on any list: every instruction is one 32-bit word (R62). -/
def decodeBytes : List Byte → DecodedBytes
  | b0 :: b1 :: b2 :: b3 :: rest =>
    match decodeWord (wordOfBytes b0 b1 b2 b3) with
    | .instr i => .instr i rest
    | .notInScope w => .notInScope w
  | bytes => .truncated bytes.length

/-! ## The encoder -/

/-- The word of the System register move form with its fields (R62); only the low bit of op0 is
encoded, as o0. -/
def sysMoveWord (read : Bool) (n : SysRegName) (t : RegNum) : Word32 :=
  (0b1101010100#10 ++ BitVec.ofBool read ++ 1#1 ++ n.op0.extractLsb' 0 1 ++ n.op1 ++ n.crn
    ++ n.crm ++ n.op2 ++ t : BitVec 32)

/-- The word of an instruction (R62, R63). -/
def encodeWord : Instr → Word32
  | .mrsIfsr32El2 t => sysMoveWord true ifsr32El2Name t
  | .msrIfsr32El2 t => sysMoveWord false ifsr32El2Name t

/-- The bytes of a word as memory holds it, lowest address first (R50). -/
def bytesOfWord (w : Word32) : List Byte :=
  [w.extractLsb' 0 8, w.extractLsb' 8 8, w.extractLsb' 16 8, w.extractLsb' 24 8]

/-- The bytes of an instruction. -/
def encode (i : Instr) : List Byte := bytesOfWord (encodeWord i)

/-- The 32-bit word whose low `nbits` bits are those of `w`, every bit above them 0. -/
def tableWord (nbits w : Nat) : Word32 := BitVec.ofNat 32 (w % 2 ^ nbits)

/-- The instruction the decoder reads from an instruction whose bits are `w`, numbered as
spec/opcode_table.json numbers them. -/
def decodeTableWord (nbits w : Nat) : Option Instr :=
  match decodeBytes (bytesOfWord (tableWord nbits w)) with
  | .instr i _ => some i
  | .notInScope _ => none
  | .truncated _ => none

/-! ## The assembler's spelling -/

/-- The 64-bit name of general register `t` (R67): X0 to X30, and XZR for 31. -/
def regName (t : RegNum) : String :=
  if t = 31 then "XZR" else "X" ++ Nat.repr t.toNat

/-- The assembler line of an instruction (R67, R68). -/
def assembly : Instr → String
  | .mrsIfsr32El2 t => "MRS " ++ regName t ++ ", IFSR32_EL2"
  | .msrIfsr32El2 t => "MSR IFSR32_EL2, " ++ regName t

/-- The generic name of a System register, S<op0>_<op1>_C<CRn>_C<CRm>_<op2> (R68). -/
def genericName (n : SysRegName) : String :=
  "S" ++ Nat.repr n.op0.toNat ++ "_" ++ Nat.repr n.op1.toNat ++ "_C" ++ Nat.repr n.crn.toNat
    ++ "_C" ++ Nat.repr n.crm.toNat ++ "_" ++ Nat.repr n.op2.toNat

/-- The assembler line under the generic name, which stands for the same word (R68). -/
def genericAssembly : Instr → String
  | .mrsIfsr32El2 t => "MRS " ++ regName t ++ ", " ++ genericName ifsr32El2Name
  | .msrIfsr32El2 t => "MSR " ++ genericName ifsr32El2Name ++ ", " ++ regName t

end Sys2Proof
end

