-- ==== Sys2Proof/Machine/Ops.lean ====
section
/-! DEFINITION. The named operations of the machine: memory and the fetch, the program counter, the
register's raw value, the inputs of the environment, the access check and the two abnormal outcomes,
and the events of the environment (Warm reset, the AArch32 side, the load of a program). -/

namespace Sys2Proof.Machine

/-! ## Memory -/

/-- The byte at an address; `unlistedByte` where nothing is listed. -/
def Memory.readByte : Memory → Nat → Option Byte
  | [], _ => unlistedByte
  | (a, b) :: rest, k => if a = k then some b else Memory.readByte rest k

/-- Write one byte, keeping addresses strictly rising. -/
def Memory.writeByte (k : Nat) (b : Byte) : Memory → Memory
  | [] => [(k, b)]
  | (a, c) :: rest =>
    if k < a then (k, b) :: (a, c) :: rest
    else if k = a then (k, b) :: rest
    else (a, c) :: Memory.writeByte k b rest

/-- Write bytes at rising addresses from `a` on, modulo 2^64. -/
def Memory.placeBytes : List Byte → Word64 → Memory → Memory
  | [], _, m => m
  | b :: bs, a, m => Memory.placeBytes bs (a + 1) (m.writeByte a.toNat b)

/-- Place one instruction word, little-endian (R50). -/
def Memory.placeWord (w : Word32) (a : Word64) (m : Memory) : Memory :=
  m.placeBytes (bytesOfWord w) a

/-- Place the words of a program at `a`, `a + 4`, and so on (R102). -/
def Memory.placeWords : List Word32 → Word64 → Memory → Memory
  | [], _, m => m
  | w :: ws, a, m => Memory.placeWords ws (a + 4) (m.placeWord w a)

/-- The instruction word at an address, little-endian (R50); none where a byte of it has no value. -/
def Memory.readWord (m : Memory) (a : Word64) : Option Word32 :=
  match m.readByte a.toNat, m.readByte (a + 1).toNat, m.readByte (a + 2).toNat,
    m.readByte (a + 3).toNat with
  | some b0, some b1, some b2, some b3 => some (wordOfBytes b0 b1 b2 b3)
  | _, _, _, _ => none

/-! ## The program counter and the fetch -/

/-- The address is a multiple of 4 (R51). -/
def wordAligned (a : Word64) : Bool := a.toNat % 4 == 0

/-- The address with its two low bits cleared. -/
def alignDown (a : Word64) : Word64 := a &&& ~~~3

/-- The advance of the program counter on `Next`: pc + 4 modulo 2^64 (R39). -/
def State.advancePc (s : State) : State := { s with pc := s.pc + 4 }

/-- The instruction at the program counter, or why there is none (R51, R57, R66, R102). -/
def fetch (s : State) : Except Refusal Instr :=
  if wordAligned s.pc then
    match s.mem.readWord s.pc with
    | none => .error (.noProgramWord s.pc)
    | some w =>
      match decodeWord w with
      | .instr i => .ok i
      | .notInScope word => .error (.notInScope word)
  else .error (.misalignedPc s.pc)

/-! ## The register and the environment's inputs -/

/-- Replace IFSR32_EL2_raw (R10). -/
def State.setIfsr32Raw (v : Word64) (s : State) : State := { s with ifsr32Raw := v }

/-- `EffectiveHCR_EL2_NVx()` (R40): the supplied controls; without EL2 its bit 0 is 0, the
constraint of D7 (UNVERIFIED, log 9). -/
def effectiveNVx (s : State) : BitVec 3 :=
  if s.cfg.haveEL2 then s.hcrNVx else s.hcrNVx &&& 0b110

/-- Set the inputs of the environment for the next step (R13, R40). -/
def State.setInputs (i : EnvInput) (s : State) : State :=
  { s with eae := i.eae, hcrNVx := i.hcrNVx }

/-- Between two steps the environment supplies the next inputs of its schedule; where the schedule
is at its end it leaves them as they are (R13: EAE may differ from one step to the next; log 8). -/
def State.takeInputs (s : State) : State :=
  match s.upcoming with
  | [] => s
  | i :: rest => { s.setInputs i with upcoming := rest }

/-! ## The access check and the two abnormal outcomes -/

/-- What the access pseudocode decides (R74). -/
inductive AccessDecision where
  | undefined
  | trapToEl2
  | permitted
  deriving DecidableEq, Repr

/-- The chain of conditions both instructions test, first match wins (R70, R72, R86). It tests
neither whether EL2 is implemented nor the register's value nor `t` (R74). -/
def accessDecision (s : State) : AccessDecision :=
  if s.cfg.featAA32EL1 then
    match s.el with
    | .el0 => .undefined
    | .el1 => if (effectiveNVx s).getLsbD 0 then .trapToEl2 else .undefined
    | .el2 => .permitted
    | .el3 => .permitted
  else .undefined

/-- `UNDEFINED` (R80): a terminal fault; no state is written. -/
def raiseUndefined : Host.Outcome State Fault Refusal := .fault .undefined

/-- `AArch64.SystemAccessTrap(target, code)` (R82): a terminal fault; no state is written. -/
def raiseSystemAccessTrap (target : ExceptionLevel) (code : BitVec 6) :
    Host.Outcome State Fault Refusal :=
  .fault (.systemAccessTrap target code)

/-- The code of the trap (R82). -/
def sysAccessTrapCode : BitVec 6 := 0x18

/-- Make an access whose effect, where the check permits it, is `effect` (R70 to R73). -/
def accessRegister (effect : State → State) (s : State) : Host.Outcome State Fault Refusal :=
  match accessDecision s with
  | .undefined => raiseUndefined
  | .trapToEl2 => raiseSystemAccessTrap .el2 sysAccessTrapCode
  | .permitted => .next (effect s)

/-! ## Events of the environment: never a step of a program (R41, R95, R102) -/

/-- The effect of a Warm reset on the register: the whole of it becomes a fresh draw (R42, R43,
R95). The rest of `launch` is the launch state, which R97 leaves to explicit premises (log 19). -/
def State.warmReset (launch : State) : State :=
  { launch with ifsr32Raw := Config.unknown64 launch.draws, draws := launch.draws + 1 }

/-- Any other reset is treated as a Warm reset (R96). -/
def State.coldReset (launch : State) : State := launch.warmReset

/-- The AArch32 view IFSR of the register: the same storage as its bits [31:0] (R12). DESIGN CHOICE,
unsafe (log 35): at a hardwired RES0 bit the view shows the raw bit; R35 (a) says that such a bit
reads 0, and the spec does not say whether AArch32 sees the raw bit or ReadView. -/
def State.ifsrAArch32 (s : State) : Word32 := s.ifsr32Raw.extractLsb' 0 32

/-- `EnvAArch32` can fire only while the processing element is not executing in AArch64 state at EL2
or EL3 (R41; the model is in AArch64 state throughout, D1). -/
def envAArch32Enabled (s : State) : Bool :=
  match s.el with
  | .el0 => true
  | .el1 => true
  | .el2 => false
  | .el3 => false

/-- `EnvAArch32(v32)` (R41): the AArch32 side leaves `v32` in bits [31:0]; bits [63:32] stay. None
where the event cannot fire. -/
def envAArch32 (v32 : Word32) (s : State) : Option State :=
  if envAArch32Enabled s then
    some (s.setIfsr32Raw (s.ifsr32Raw.extractLsb' 32 32 ++ v32))
  else none

/-- The load of a program at BASE and its launch there (R53, R102). DESIGN CHOICE, unsafe (log 33):
memory outside the program's words keeps what it held. The spec takes a program as a list and says
nothing of that memory. -/
def loadProgram (ws : List Word32) (s : State) : State :=
  { s with mem := s.mem.placeWords ws s.cfg.base, pc := s.cfg.base }

/-- The normal end of a run of an n-word program (R102). A step there would run
whatever word stands there, and the spec says nothing of it (log 33). -/
def atEndOfRun (n : Nat) (s : State) : Bool :=
  s.pc == s.cfg.base + BitVec.ofNat 64 (4 * n)

end Sys2Proof.Machine
end

