-- ==== Sys2Proof/Machine/SysRegMove.lean ====
section
/-! DEFINITION. The System register access instructions (40_sysreg_access.md): the meanings of
MRS <Xt>, IFSR32_EL2 and MSR IFSR32_EL2, <Xt>. -/

namespace Sys2Proof.Machine

/-- `MRS <Xt>, IFSR32_EL2` (R70, R71): where access is permitted, x[t] takes what a read of the
register sees and pc advances; the register does not change. -/
def execMrsIfsr32El2 (t : RegNum) (s : State) : Host.Outcome State Fault Refusal :=
  accessRegister (fun s => (writeX t (readView s.cfg s.eae s.ifsr32Raw) s).advancePc) s

/-- `MSR IFSR32_EL2, <Xt>` (R72, R73): where access is permitted, the register takes x[t] at every
bit that is not hardwired and pc advances; x[t] does not change. -/
def execMsrIfsr32El2 (t : RegNum) (s : State) : Host.Outcome State Fault Refusal :=
  accessRegister
    (fun s => (s.setIfsr32Raw (writeMerge s.cfg s.eae s.ifsr32Raw (readX s t))).advancePc) s

end Sys2Proof.Machine
end

