-- ==== Sys2Proof/Machine/Dispatch.lean ====
section
/-! DEFINITION. One arm per instruction of spec/opcode_table.json. -/

namespace Sys2Proof.Machine

def exec (i : Instr) (s : State) : Host.Outcome State Fault Refusal :=
  match i with
  | .mrsIfsr32El2 t => Sys2Proof.Machine.execMrsIfsr32El2 t s
  | .msrIfsr32El2 t => Sys2Proof.Machine.execMsrIfsr32El2 t s

end Sys2Proof.Machine
end

