-- ==== Sys2Proof/Machine/Step.lean ====
section
/-! DEFINITION. One step of the machine (00_scope.md section 5.3), and the placing of an instruction
where the next step fetches it. -/

namespace Sys2Proof.Machine

/-- One step: fetch the instruction at pc, run it, and, after a next state, let the environment
supply the inputs of the step to come (R13, R40). Both faults are terminal (R84). -/
def step (s : State) : Host.Outcome State Fault Refusal :=
  match fetch s with
  | .error r => .refused r
  | .ok i =>
    match exec i s with
    | .next s' => .next s'.takeInputs
    | .fault f => .fault f
    | .refused r => .refused r

/-- `s` with the instruction whose bits are `w` stored where `step` fetches next: at pc, which is
first brought to a multiple of 4 if it is none. It stands for the load of a program from outside the
machine (log 32). -/
def State.withFetchWord (s : State) (nbits w : Nat) : State :=
  { s with
    pc := alignDown s.pc
    mem := s.mem.placeWord (tableWord nbits w) (alignDown s.pc) }

end Sys2Proof.Machine
end

