-- ==== Sys2Proof/Machine/Flags.lean ====
section
/-! DEFINITION. The one-bit fields of the register (10_state.md R17, R19, R20) and what their values
say. The spec has no condition flag, and neither instruction reads or writes one (R37, R75), so no
other flag is computed anywhere. -/

namespace Sys2Proof.Machine

/-- FnV, bit [16], in both layouts (R17). -/
def fnvOf (v : Word64) : Bool := v.getLsbD 16

/-- ExT, bit [12], in both layouts (R19). -/
def extOf (v : Word64) : Bool := v.getLsbD 12

/-- LPAE, bit [9], in both layouts (R20). -/
def lpaeOf (v : Word64) : Bool := v.getLsbD 9

/-- What FnV says of IFAR (R17). -/
inductive IfarValidity where
  /-- "IFAR is valid." -/
  | valid
  /-- "IFAR is not valid, and holds an UNKNOWN value." -/
  | notValid
  deriving DecidableEq, Repr

/-- The FnV value table (R17). -/
def fnvMeaning (fnv : Bool) : IfarValidity := if fnv then .notValid else .valid

/-- The two translation table formats (R20, R54), which name the two layouts (R33). -/
inductive TableFormat where
  | short
  | long
  deriving DecidableEq, Repr

/-- The LPAE value table (R20). -/
def lpaeMeaning (lpae : Bool) : TableFormat := if lpae then .long else .short

/-- The layout that `TTBCR.EAE` selects (R13). -/
def layoutOf (eae : Bool) : TableFormat := if eae then .long else .short

end Sys2Proof.Machine
end

