-- ==== Sys2Proof/Machine/FaultRecord.lean ====
section
/-! DEFINITION. Reading a register value as a fault record (10_state.md R22 to R34, 60_exceptions.md
R88, R89): the FS and STATUS codes, `Interp`, and `HwRecorded`. No instruction depends on any of it:
the register's value has no effect on execution in AArch64 state (R11). -/

namespace Sys2Proof.Machine

/-- The lookup level attached to a fault name; the spec gives it no further meaning (N17). -/
inductive Level where
  | one | two | three
  deriving DecidableEq, Repr

/-- The fault kinds of R89, and `reserved` for a code that names none (R25, R32). -/
inductive FaultKind where
  | addressSizeTableBase
  | addressSize (l : Level)
  | translation (l : Level)
  | accessFlag (l : Level)
  | domain (l : Level)
  | permission (l : Level)
  | externalNotOnWalk
  | externalOnWalk (l : Level)
  | parityNotOnWalk
  | parityOnWalk (l : Level)
  | pcAlignment
  | debug
  | tlbConflict
  | lockdown
  | reserved
  deriving DecidableEq, Repr

/-! ## The codes -/

/-- The 5-bit FS of a register value: bit [10] above bits [3:0] (R22). -/
def fsOf (v : Word64) : BitVec 5 := v.extractLsb' 10 1 ++ v.extractLsb' 0 4

/-- The 6-bit STATUS of a register value (R29). -/
def statusOf (v : Word64) : BitVec 6 := v.extractLsb' 0 6

/-- The register image of an FS code, every other bit zero (R22). -/
def fsImage (c : BitVec 5) : Word64 :=
  ((c.extractLsb' 4 1).zeroExtend 64 <<< 10) ||| (c.extractLsb' 0 4).zeroExtend 64

/-- The register image of a STATUS code, every other bit zero (R29). -/
def statusImage (c : BitVec 6) : Word64 := c.zeroExtend 64

/-- The FS values that apply in every implementation (R23). -/
def fsTable : List (BitVec 5 × FaultKind) :=
  [(0b00001, .pcAlignment), (0b00010, .debug), (0b00011, .accessFlag .one),
   (0b00101, .translation .one), (0b00110, .accessFlag .two), (0b00111, .translation .two),
   (0b01000, .externalNotOnWalk), (0b01001, .domain .one), (0b01011, .domain .two),
   (0b01100, .externalOnWalk .one), (0b01101, .permission .one), (0b01110, .externalOnWalk .two),
   (0b01111, .permission .two), (0b10000, .tlbConflict), (0b10100, .lockdown)]

/-- The FS values that apply when FEAT_RAS is not implemented (R24). -/
def fsTableNoRas : List (BitVec 5 × FaultKind) :=
  [(0b11001, .parityNotOnWalk), (0b11100, .parityOnWalk .one), (0b11110, .parityOnWalk .two)]

/-- The STATUS values that apply in every implementation (R30). -/
def statusTable : List (BitVec 6 × FaultKind) :=
  [(0b000000, .addressSizeTableBase), (0b000001, .addressSize .one),
   (0b000010, .addressSize .two), (0b000011, .addressSize .three),
   (0b000101, .translation .one), (0b000110, .translation .two), (0b000111, .translation .three),
   (0b001001, .accessFlag .one), (0b001010, .accessFlag .two), (0b001011, .accessFlag .three),
   (0b001101, .permission .one), (0b001110, .permission .two), (0b001111, .permission .three),
   (0b010000, .externalNotOnWalk), (0b010101, .externalOnWalk .one),
   (0b010110, .externalOnWalk .two), (0b010111, .externalOnWalk .three),
   (0b100001, .pcAlignment), (0b100010, .debug), (0b110000, .tlbConflict)]

/-- The STATUS values that apply when FEAT_RAS is not implemented (R31). -/
def statusTableNoRas : List (BitVec 6 × FaultKind) :=
  [(0b011000, .parityNotOnWalk), (0b011101, .parityOnWalk .one),
   (0b011110, .parityOnWalk .two), (0b011111, .parityOnWalk .three)]

/-- Look a code up: the rows that always apply, then those that need FEAT_RAS absent, else reserved
(R25, R32, R33; C4). -/
def kindIn {n : Nat} (always noRas : List (BitVec n × FaultKind)) (ras : Bool) (c : BitVec n) :
    FaultKind :=
  match always.lookup c with
  | some k => k
  | none => if ras then .reserved else (noRas.lookup c).getD .reserved

/-- The kind an FS code names (R23 to R25). -/
def fsKind (ras : Bool) (c : BitVec 5) : FaultKind := kindIn fsTable fsTableNoRas ras c

/-- The kind a STATUS code names (R30 to R32). -/
def statusKind (ras : Bool) (c : BitVec 6) : FaultKind := kindIn statusTable statusTableNoRas ras c

/-- The FS values reserved in every implementation, as R25 lists them. -/
def fsReserved : List (BitVec 5) :=
  [0b00000, 0b00100, 0b01010, 0b10001, 0b10010, 0b10011, 0b10101, 0b10110, 0b10111, 0b11000,
   0b11010, 0b11011, 0b11101, 0b11111]

/-- The STATUS values reserved in every implementation, as R32 lists them. -/
def statusReserved : List (BitVec 6) :=
  [0b000100, 0b001000, 0b001100, 0b010001, 0b010010, 0b010011, 0b010100, 0b011001, 0b011010,
   0b011011, 0b011100, 0b100000, 0b100011, 0b100100, 0b100101, 0b100110, 0b100111]
  ++ [0b101000, 0b101001, 0b101010, 0b101011, 0b101100, 0b101101, 0b101110, 0b101111]
  ++ [0b110001, 0b110010, 0b110011, 0b110100, 0b110101, 0b110110, 0b110111, 0b111000, 0b111001,
      0b111010, 0b111011, 0b111100, 0b111101, 0b111110, 0b111111]

/-! ## The names, in the source's words -/

/-- The number in a fault's name. -/
def levelText : Level → String
  | .one => "level 1."
  | .two => "level 2."
  | .three => "level 3."

/-- The meaning quoted for a kind in the table of a layout (R23, R24, R30, R31): the two tables
word the faults on a walk differently (C3). None where the layout has no code of the kind (R89). -/
def meaningText : TableFormat → FaultKind → Option String
  | .long, .addressSizeTableBase => some "Address size fault in translation table base register."
  | .short, .addressSizeTableBase => none
  | .long, .addressSize l => some ("Address size fault, " ++ levelText l)
  | .short, .addressSize _ => none
  | .short, .translation .three => none
  | _, .translation l => some ("Translation fault, " ++ levelText l)
  | .short, .accessFlag .three => none
  | _, .accessFlag l => some ("Access flag fault, " ++ levelText l)
  | .long, .domain _ => none
  | .short, .domain .three => none
  | .short, .domain l => some ("Domain fault, " ++ levelText l)
  | .short, .permission .three => none
  | _, .permission l => some ("Permission fault, " ++ levelText l)
  | _, .externalNotOnWalk => some "Synchronous External abort, not on translation table walk."
  | .short, .externalOnWalk .three => none
  | .short, .externalOnWalk l =>
    some ("Synchronous External abort, on translation table walk, " ++ levelText l)
  | .long, .externalOnWalk l =>
    some ("Synchronous External abort on translation table walk, " ++ levelText l)
  | _, .parityNotOnWalk =>
    some "Synchronous parity or ECC error on memory access, not on translation table walk."
  | .short, .parityOnWalk .three => none
  | .short, .parityOnWalk l =>
    some ("Synchronous parity or ECC error on translation table walk, " ++ levelText l)
  | .long, .parityOnWalk l =>
    some ("Synchronous parity or ECC error on memory access on translation table walk, "
      ++ levelText l)
  | _, .pcAlignment => some "PC alignment fault."
  | _, .debug => some "Debug exception."
  | _, .tlbConflict => some "TLB conflict abort."
  | .short, .lockdown => some "IMPLEMENTATION DEFINED fault (Lockdown fault)."
  | .long, .lockdown => none
  | _, .reserved => none

/-! ## Interp and HwRecorded -/

/-- What a register value says (R33). -/
structure FaultRecord where
  layout : TableFormat
  kind : FaultKind
  fnv : Bool
  ext : Bool
  lpae : Bool
  deriving DecidableEq, Repr

/-- `Interp(eae, ras, v)` (R33): the layout is the caller's, never bit 9 (C2). -/
def interp (eae ras : Bool) (v : Word64) : FaultRecord where
  layout := layoutOf eae
  kind := if eae then statusKind ras (statusOf v) else fsKind ras (fsOf v)
  fnv := fnvOf v
  ext := extOf v
  lpae := lpaeOf v

/-- FnV says something of IFAR only for this kind (R17, R33). -/
def fnvMeaningful (k : FaultKind) : Bool := k == .externalNotOnWalk

/-- What the spec says of a kind being an External abort: yes, no, or nothing (R34, D22; log 27). -/
inductive ExternalAbortClass where
  | external
  | notExternal
  | unsaid
  deriving DecidableEq, Repr

/-- The codes named "Synchronous External abort" are External aborts; of the parity or ECC codes the
source says nothing (R34, N23). -/
def externalAbortClass : FaultKind → ExternalAbortClass
  | .externalNotOnWalk => .external
  | .externalOnWalk _ => .external
  | .parityNotOnWalk => .unsaid
  | .parityOnWalk _ => .unsaid
  | .addressSizeTableBase => .notExternal
  | .addressSize _ => .notExternal
  | .translation _ => .notExternal
  | .accessFlag _ => .notExternal
  | .domain _ => .notExternal
  | .permission _ => .notExternal
  | .pcAlignment => .notExternal
  | .debug => .notExternal
  | .tlbConflict => .notExternal
  | .lockdown => .notExternal
  | .reserved => .notExternal

/-- Whether ExT says something of a reading: only where External aborts are classified and the kind
is one (R33). For the parity or ECC kinds the spec leaves it open whether they are External aborts
(N23, R34), so with a classification the answer for them is none, neither yes nor no: the model's
own form of that open point (DESIGN CHOICE, log 27). -/
def extMeaningful (c : Config) (k : FaultKind) : Option Bool :=
  if c.extClassification then
    match externalAbortClass k with
    | .external => some true
    | .notExternal => some false
    | .unsaid => none
  else some false

/-- `HwRecorded(eae, v)` (R34): what holds of a value hardware records on taking a Prefetch Abort
exception. The LPAE clause rests on the reading of C1 (log 25). -/
def hwRecorded (c : Config) (eae : Bool) (v : Word64) : Bool :=
  let k := (interp eae c.featRAS v).kind
  v &&& layoutRes0 eae == 0
    && k != .reserved
    && lpaeOf v == eae
    && (k == .externalNotOnWalk || !fnvOf v)
    && (externalAbortClass k != .notExternal || !extOf v)
    && (c.extClassification || !extOf v)

/-- The restricted environment step R34 offers: `EnvAArch32` with a value hardware could have
recorded on taking a Prefetch Abort exception (R34, R41). -/
def envPrefetchAbort (v32 : Word32) (s : State) : Option State :=
  if hwRecorded s.cfg s.eae (v32.zeroExtend 64) then envAArch32 v32 s else none

end Sys2Proof.Machine
end

