-- ==== Sys2Proof/Machine/TrapReport.lean ====
section
/-! DEFINITION. What a System access trap conventionally records (60_exceptions.md R83).

PRESUMED (log 29): R83 is general knowledge in every particular (GK6) and no rule depends on it; so
no instruction does here either, the trap stays the terminal fault of R82, and these are functions
for a reader who continues past it. -/

namespace Sys2Proof.Machine

/-- ISS = ESR_EL2[24:0]: [24:22] zero, [21:20] Op0, [19:17] Op2, [16:14] Op1, [13:10] CRn, [9:5] Rt,
[4:1] CRm, [0] Direction (1 for a read). -/
def trapIss (n : SysRegName) (t : RegNum) (read : Bool) : BitVec 25 :=
  0#3 ++ n.op0 ++ n.op2 ++ n.op1 ++ n.crn ++ t ++ n.crm ++ BitVec.ofBool read

/-- The ISS of an instruction's trap. -/
def trapIssOf : Instr → BitVec 25
  | .mrsIfsr32El2 t => trapIss ifsr32El2Name t true
  | .msrIfsr32El2 t => trapIss ifsr32El2Name t false

/-- ESR_EL2: EC = [31:26] = 0x18, IL = [25] = 1, ISS = [24:0]. -/
def trapEsr (i : Instr) : Word32 := sysAccessTrapCode ++ 1#1 ++ trapIssOf i

/-- What the trap would leave for EL2: the syndrome, the preferred return address (the trapped
instruction itself) and the level it came from. -/
structure TrapReport where
  esrEl2 : Word32
  elrEl2 : Word64
  fromLevel : ExceptionLevel
  toLevel : ExceptionLevel
  deriving DecidableEq, Repr

/-- The report of the trap of `i` at `s`. -/
def trapReport (i : Instr) (s : State) : TrapReport where
  esrEl2 := trapEsr i
  elrEl2 := s.pc
  fromLevel := s.el
  toLevel := .el2

end Sys2Proof.Machine
end

