-- ==== Sys2Proof/Safety.lean ====
section
/-! DEFINITION. What counts as a well-formed state and a safe step, in the terms statements use. -/

namespace Sys2Proof.Machine

/-- A well-formed state: memory canonical, pc and BASE at multiples of 4 (R51, R53), the current
Exception level implemented (R92). -/
def State.wf (s : State) : Bool :=
  s.mem.wf && wordAligned s.pc && s.cfg.baseAligned && s.cfg.implementsLevel s.el

/-- The access check permits an access (R74, rows EL2 and EL3): the conditions under which both
instructions complete. -/
def State.permitsAccess (s : State) : Prop :=
  s.cfg.featAA32EL1 = true ∧ (s.el = .el2 ∨ s.el = .el3)

/-- A step that ends in no fault (R81, R82). A refusal is none: it says that the model gives the step
no meaning, not that the machine raised anything. -/
def stepIsSafe (s : State) : Bool :=
  match step s with
  | .next _ => true
  | .fault _ => false
  | .refused _ => true

/-- Two states agree on everything but the register and the general registers. -/
def agreeOutsideRegisters (a b : State) : Prop :=
  a.pc = b.pc ∧ a.el = b.el ∧ a.hcrNVx = b.hcrNVx ∧ a.eae = b.eae ∧ a.upcoming = b.upcoming ∧
    a.draws = b.draws ∧ a.mem = b.mem ∧ a.cfg = b.cfg

/-- Every byte of memory reads the same in both states. -/
def sameMemory (a b : State) : Prop := ∀ k : Nat, a.mem.readByte k = b.mem.readByte k

end Sys2Proof.Machine
end

