-- ==== Sys2Proof/Certificates/Slice0/Obligations.lean ====
section
/-! DEFINITION. The statements for the provers, by family of the spec's rules. "The spec's own"
marks a clause that rests on a decision or an adoption the spec marks as its own (D<n>, GK<n>), and
the log entry that records it. -/

open Sys2Proof Sys2Proof.Machine

/-! ## Encoding (30_encoding.md) -/

/-- Words written out in 30_encoding.md section 6 decode to the instructions named there, from their
bytes in memory; a neighbour of theirs (op2 = 0b000, vector E5) is out of scope. The bit positions
are the spec's own (GK1, log 15). -/
def Obligations.WorkedWordsDecode : Prop :=
  decodeBytes [0x21, 0x50, 0x3C, 0xD5] = .instr (.mrsIfsr32El2 1) [] ∧
  decodeBytes [0x3F, 0x50, 0x3C, 0xD5] = .instr (.mrsIfsr32El2 31) [] ∧
  decodeBytes [0x29, 0x50, 0x1C, 0xD5] = .instr (.msrIfsr32El2 9) [] ∧
  decodeBytes [0x3E, 0x50, 0x1C, 0xD5] = .instr (.msrIfsr32El2 30) [] ∧
  decodeBytes [0x00, 0x50, 0x3C, 0xD5] = .notInScope 0xD53C5000

/-- Decoding the bytes of any instruction, whatever follows them, gives it back. -/
def Obligations.DecodeEncodeRoundTrip : Prop :=
  ∀ (i : Instr) (rest : List Byte), decodeBytes (encode i ++ rest) = .instr i rest

/-- R66, R62, R63: a word is an instruction exactly where it matches one of the two rows, with Rt as
the operand; on any other word the decoder answers NotInScope and the machine refuses the step. The
admitted subset and the rows are the spec's own (D1, GK1; log 14, 15). -/
def Obligations.DecoderAcceptsTheTwoRows : Prop :=
  (∀ w : Word32, w &&& 0xFFFFFFE0 = 0xD53C5020 →
      decodeWord w = .instr (.mrsIfsr32El2 (w.extractLsb' 0 5))) ∧
  (∀ w : Word32, w &&& 0xFFFFFFE0 = 0xD51C5020 →
      decodeWord w = .instr (.msrIfsr32El2 (w.extractLsb' 0 5))) ∧
  (∀ w : Word32, w &&& 0xFFFFFFE0 ≠ 0xD53C5020 → w &&& 0xFFFFFFE0 ≠ 0xD51C5020 →
      decodeWord w = .notInScope w ∧
      ∀ s : State, s.pc.toNat % 4 = 0 → s.mem.readWord s.pc = some w →
        step s = .refused (.notInScope w))

/-- R61: every word that decodes to an instruction names op0 = 0b11, op1 = 0b100, CRn = 0b0101,
CRm = 0b0000, op2 = 0b001, and the word of each instruction, read or write, names that point. -/
def Obligations.BothInstructionsNameTheRegister : Prop :=
  (∀ (w : Word32) (i : Instr), decodeWord w = .instr i →
      sysRegNameOf w = ⟨0b11, 0b100, 0b0101, 0b0000, 0b001⟩) ∧
  ∀ t : RegNum,
    sysRegNameOf (encodeWord (.mrsIfsr32El2 t)) = ⟨0b11, 0b100, 0b0101, 0b0000, 0b001⟩ ∧
    sysRegNameOf (encodeWord (.msrIfsr32El2 t)) = ⟨0b11, 0b100, 0b0101, 0b0000, 0b001⟩

/-! ## The step -/

/-- When the four bytes at an aligned pc decode to an instruction, step is exec of it at that state,
followed, on a next state, by the environment's inputs for the step to come: the head of the
schedule, or the inputs as they were where nothing is scheduled (log 8, the model's choice). -/
def Obligations.StepRunsDecodedInstruction : Prop :=
  ∀ (s : State) (b0 b1 b2 b3 : Byte) (i : Instr),
    s.pc.toNat % 4 = 0 →
    s.mem.readByte s.pc.toNat = some b0 → s.mem.readByte (s.pc + 1).toNat = some b1 →
    s.mem.readByte (s.pc + 2).toNat = some b2 → s.mem.readByte (s.pc + 3).toNat = some b3 →
    decodeBytes [b0, b1, b2, b3] = .instr i [] →
    step s = match exec i s with
      | .next u =>
        match u.upcoming with
        | [] => .next u
        | e :: rest => .next { u with eae := e.eae, hcrNVx := e.hcrNVx, upcoming := rest }
      | .fault f => .fault f
      | .refused r => .refused r

/-- A pc that is not a multiple of 4 is refused: the spec's own (R51, D29; log 13). An aligned pc
where a byte of the word is missing is refused too: the model's choice (log 12), since the spec says
nothing of a step there. -/
def Obligations.StepRefusesWhereNoProgramStands : Prop :=
  (∀ s : State, s.pc.toNat % 4 ≠ 0 → step s = .refused (.misalignedPc s.pc)) ∧
  ∀ (s : State) (k : Nat), s.pc.toNat % 4 = 0 → k < 4 →
    s.mem.readByte (s.pc.toNat + k) = none → step s = .refused (.noProgramWord s.pc)

/-- The instruction `withFetchWord` places is the one the very next step runs, from any state
(log 32, the model's choice). -/
def Obligations.PlacedInstructionRunsNext : Prop :=
  ∀ (s : State) (w : Nat) (i : Instr), decodeTableWord 32 w = some i →
    step (s.withFetchWord 32 w) = match exec i (s.withFetchWord 32 w) with
      | .next u => .next u.takeInputs
      | .fault f => .fault f
      | .refused r => .refused r

/-! ## The two instructions (40_sysreg_access.md) -/

/-- R70, every arm. `Undefined` without FEAT_AA32EL1, at EL0, and at EL1 with NVx()[0] = 0; the trap
at EL1 with NVx()[0] = 1; at EL2 and EL3 a next state in which x[t] holds ReadView of the register
(nothing is written for t = 31), pc is advanced by 4 and all else is as before. Its word is R62's. -/
def Obligations.MrsReadsRegister : Prop :=
  ∀ (t : RegNum) (s : State),
    encodeWord (.mrsIfsr32El2 t) = 0xD53C5020 ||| t.zeroExtend 32 ∧
    (s.cfg.featAA32EL1 = false → exec (.mrsIfsr32El2 t) s = .fault .undefined) ∧
    (s.cfg.featAA32EL1 = true → s.el = .el0 → exec (.mrsIfsr32El2 t) s = .fault .undefined) ∧
    (s.cfg.featAA32EL1 = true → s.el = .el1 → (effectiveNVx s).getLsbD 0 = true →
      exec (.mrsIfsr32El2 t) s = .fault (.systemAccessTrap .el2 0x18)) ∧
    (s.cfg.featAA32EL1 = true → s.el = .el1 → (effectiveNVx s).getLsbD 0 = false →
      exec (.mrsIfsr32El2 t) s = .fault .undefined) ∧
    (s.cfg.featAA32EL1 = true → (s.el = .el2 ∨ s.el = .el3) →
      ∃ u, exec (.mrsIfsr32El2 t) s = .next u ∧
        (t ≠ 31 → readX u t = readView s.cfg s.eae s.ifsr32Raw) ∧
        (∀ r : RegNum, r ≠ t → readX u r = readX s r) ∧ readX u 31 = 0 ∧
        u.pc = s.pc + 4 ∧ u.ifsr32Raw = s.ifsr32Raw ∧
        u = { s with x := u.x, pc := s.pc + 4 })

/-- R72, every arm. The exceptions of R70; at EL2 and EL3 a next state in which the register is
WriteMerge of x[t] (of zero for t = 31), AArch32 IFSR holds x[t]'s bits [31:0] where they are not
hardwired, pc is advanced by 4 and all else is as before. Its word is R63's. What IFSR shows at a
hardwired bit is left to MsrWritesAArch32Ifsr. -/
def Obligations.MsrWritesRegister : Prop :=
  ∀ (t : RegNum) (s : State),
    encodeWord (.msrIfsr32El2 t) = 0xD51C5020 ||| t.zeroExtend 32 ∧
    (s.cfg.featAA32EL1 = false → exec (.msrIfsr32El2 t) s = .fault .undefined) ∧
    (s.cfg.featAA32EL1 = true → s.el = .el0 → exec (.msrIfsr32El2 t) s = .fault .undefined) ∧
    (s.cfg.featAA32EL1 = true → s.el = .el1 → (effectiveNVx s).getLsbD 0 = true →
      exec (.msrIfsr32El2 t) s = .fault (.systemAccessTrap .el2 0x18)) ∧
    (s.cfg.featAA32EL1 = true → s.el = .el1 → (effectiveNVx s).getLsbD 0 = false →
      exec (.msrIfsr32El2 t) s = .fault .undefined) ∧
    (s.cfg.featAA32EL1 = true → (s.el = .el2 ∨ s.el = .el3) →
      ∃ u, exec (.msrIfsr32El2 t) s = .next u ∧
        (t ≠ 31 → u.ifsr32Raw = writeMerge s.cfg s.eae s.ifsr32Raw (readX s t)) ∧
        (t = 31 → u.ifsr32Raw = writeMerge s.cfg s.eae s.ifsr32Raw 0) ∧
        (∀ r : RegNum, readX u r = readX s r) ∧
        (∀ j : Nat, j < 32 → (hardwired s.cfg s.eae).getLsbD j = false →
          u.ifsrAArch32.getLsbD j = (readX s t).getLsbD j) ∧
        u = { s with ifsr32Raw := u.ifsr32Raw, pc := s.pc + 4 })

/-- R71, R73: at EL1 either instruction traps or is Undefined, and which depends on bit 0 of the
3-bit value alone; without EL2 it is always Undefined. The clause for an absent EL2 rests on the
spec's own constraint that bit 0 is then 0 (D7, log 9). -/
def Obligations.El1ArmDependsOnBitZeroOnly : Prop :=
  ∀ (t : RegNum) (s : State), s.cfg.featAA32EL1 = true → s.el = .el1 →
    (∀ v : BitVec 3, s.cfg.haveEL2 = true → v.getLsbD 0 = true →
      exec (.mrsIfsr32El2 t) { s with hcrNVx := v } = .fault (.systemAccessTrap .el2 0x18) ∧
      exec (.msrIfsr32El2 t) { s with hcrNVx := v } = .fault (.systemAccessTrap .el2 0x18)) ∧
    (∀ v : BitVec 3, s.cfg.haveEL2 = true → v.getLsbD 0 = false →
      exec (.mrsIfsr32El2 t) { s with hcrNVx := v } = .fault .undefined ∧
      exec (.msrIfsr32El2 t) { s with hcrNVx := v } = .fault .undefined) ∧
    (s.cfg.haveEL2 = false →
      exec (.mrsIfsr32El2 t) s = .fault .undefined ∧
      exec (.msrIfsr32El2 t) s = .fault .undefined)

/-- R81: the accesses that are Undefined, the complete list, the same for both instructions. -/
def Obligations.UndefinedExactlyTheListedAccesses : Prop :=
  ∀ (i : Instr) (s : State),
    exec i s = .fault .undefined ↔
      s.cfg.featAA32EL1 = false ∨ s.el = .el0 ∨
        (s.el = .el1 ∧ (effectiveNVx s).getLsbD 0 = false)

/-- R82: the trap's target is EL2, its code 0x18 (24), and it is reached in one case only. That it is
a terminal fault is the spec's own (D6, log 1). -/
def Obligations.TrapInOneCaseOnly : Prop :=
  (0x18 : BitVec 6).toNat = 24 ∧
  ∀ (i : Instr) (s : State) (target : ExceptionLevel) (code : BitVec 6),
    exec i s = .fault (.systemAccessTrap target code) ↔
      (target = .el2 ∧ code = 0x18) ∧
        s.cfg.featAA32EL1 = true ∧ s.el = .el1 ∧ (effectiveNVx s).getLsbD 0 = true

/-- R86: the first matching arm decides. Without the feature every access is Undefined, whatever the
level and the NV test; with it an EL0 access is Undefined even when bit 0 of NVx() is 1; only then,
at EL1, does the NV test choose. -/
def Obligations.FirstMatchingArmDecides : Prop :=
  ∀ (i : Instr) (s : State),
    (∀ (l : ExceptionLevel) (v : BitVec 3),
      exec i { s with cfg := { s.cfg with featAA32EL1 := false }, el := l, hcrNVx := v }
        = .fault .undefined) ∧
    (∀ v : BitVec 3, exec i { s with el := .el0, hcrNVx := v } = .fault .undefined) ∧
    (s.cfg.featAA32EL1 = true → s.el = .el1 →
      exec i s = .fault (if (effectiveNVx s).getLsbD 0
        then .systemAccessTrap .el2 0x18 else .undefined))

/-- R74's "things the pseudocode does not test": two states that agree on FEAT_AA32EL1, PSTATE.EL and
bit 0 of NVx() give the same kind of outcome for any two accesses, whatever t, the register, EAE,
FEAT_RAS and the rest. -/
def Obligations.OutcomeKindDependsOnTestedStateOnly : Prop :=
  ∀ (i j : Instr) (a b : State),
    a.cfg.featAA32EL1 = b.cfg.featAA32EL1 → a.el = b.el →
    (effectiveNVx a).getLsbD 0 = (effectiveNVx b).getLsbD 0 →
    ((∃ u, exec i a = .next u) ↔ ∃ u, exec j b = .next u) ∧
    (∀ f : Fault, exec i a = .fault f ↔ exec j b = .fault f) ∧
    ∀ r : Refusal, exec i a ≠ .refused r ∧ exec j b ≠ .refused r

/-- The frame of MRS <Xt>, IFSR32_EL2: every other general register, the register IFSR32_EL2,
PSTATE.EL, the inputs, the configuration and every byte of memory are unchanged. -/
def Obligations.MrsFrame : Prop :=
  ∀ (t : RegNum) (s u : State), exec (.mrsIfsr32El2 t) s = .next u →
    (∀ r : RegNum, r ≠ t → readX u r = readX s r) ∧
    u.ifsr32Raw = s.ifsr32Raw ∧ u.el = s.el ∧ u.hcrNVx = s.hcrNVx ∧ u.eae = s.eae ∧
    u.upcoming = s.upcoming ∧ u.draws = s.draws ∧ u.cfg = s.cfg ∧ sameMemory u s

/-- The frame of MSR IFSR32_EL2, <Xt>: every general register, every hardwired bit of the register,
PSTATE.EL, the inputs, the configuration and every byte of memory are unchanged. -/
def Obligations.MsrFrame : Prop :=
  ∀ (t : RegNum) (s u : State), exec (.msrIfsr32El2 t) s = .next u →
    (∀ r : RegNum, readX u r = readX s r) ∧
    u.ifsr32Raw &&& hardwired s.cfg s.eae = s.ifsr32Raw &&& hardwired s.cfg s.eae ∧
    u.el = s.el ∧ u.hcrNVx = s.hcrNVx ∧ u.eae = s.eae ∧
    u.upcoming = s.upcoming ∧ u.draws = s.draws ∧ u.cfg = s.cfg ∧ sameMemory u s

/-- R52: neither instruction reads or writes memory: with any other memory in its place the outcome
is the same, and the memory is still the one given. -/
def Obligations.InstructionsIgnoreMemory : Prop :=
  ∀ (i : Instr) (s : State) (m : Memory),
    exec i { s with mem := m } = match exec i s with
      | .next u => .next { u with mem := m }
      | .fault f => .fault f
      | .refused r => .refused r

/-- R52: reading has no side effect, so two reads with no write between give the same value, into
two registers or twice into one. -/
def Obligations.RepeatedReadsAgree : Prop :=
  ∀ (a b : RegNum) (s : State), s.permitsAccess →
    ∃ u v, exec (.mrsIfsr32El2 a) s = .next u ∧ exec (.mrsIfsr32El2 b) u = .next v ∧
      v.ifsr32Raw = s.ifsr32Raw ∧
      (a ≠ 31 → b ≠ 31 → readX u a = readX v b ∧ readX v a = readX v b)

/-- R55 and law L1: a read that follows a write returns the value written, seen through ReadView,
also where EAE changed between the two. Program order is the spec's own (D14, GK13; log 22). -/
def Obligations.ReadAfterWriteReturnsWritten : Prop :=
  ∀ (t r : RegNum) (s : State), s.permitsAccess →
    ∃ u, exec (.msrIfsr32El2 t) s = .next u ∧
      (∃ v, exec (.mrsIfsr32El2 r) u = .next v ∧
        (r ≠ 31 → readX v r = readX s t &&& ~~~hardwired s.cfg s.eae)) ∧
      ∀ e : Bool, ∃ v, exec (.mrsIfsr32El2 r) { u with eae := e } = .next v ∧
        (r ≠ 31 → ∀ j : Nat, j < 64 → (readX v r).getLsbD j =
          (!(hardwired s.cfg e).getLsbD j &&
            if (hardwired s.cfg s.eae).getLsbD j then s.ifsr32Raw.getLsbD j
            else (readX s t).getLsbD j))

/-- R76 laws (a) and (b): after a write of v and a read under the same EAE, every bit that is not
RES0 reads back as written, a RES0 bit reads back as written where it is storage and 0 where it is
not; with RES0_STORAGE all ones the copy is exact. -/
def Obligations.WriteReadRoundTrip : Prop :=
  ∀ (t r : RegNum) (s : State), s.permitsAccess →
    ∃ u v, exec (.msrIfsr32El2 t) s = .next u ∧ exec (.mrsIfsr32El2 r) u = .next v ∧
      (r = 31 → readX v r = 0) ∧
      (r ≠ 31 →
        (s.cfg.res0Storage = BitVec.allOnes 64 → readX v r = readX s t) ∧
        readX v r &&& ~~~res0Mask s.cfg s.eae = readX s t &&& ~~~res0Mask s.cfg s.eae ∧
        ∀ j : Nat, j < 64 → (res0Mask s.cfg s.eae).getLsbD j = true →
          (readX v r).getLsbD j = (s.cfg.res0Storage.getLsbD j && (readX s t).getLsbD j))

/-- R76 law (c), R100 (b): saving with MRS Xn and restoring with MSR from the same Xn leaves the
register as it was; through XZR, which saves nothing, it clears every bit not hardwired. -/
def Obligations.SaveRestoreIsExact : Prop :=
  ∀ (t : RegNum) (s : State), s.permitsAccess →
    ∃ u v, exec (.mrsIfsr32El2 t) s = .next u ∧ exec (.msrIfsr32El2 t) u = .next v ∧
      (t ≠ 31 → v.ifsr32Raw = s.ifsr32Raw) ∧
      (t = 31 → v.ifsr32Raw = s.ifsr32Raw &&& hardwired s.cfg s.eae)

/-- R72, corner case t = 31: MSR IFSR32_EL2, XZR clears every bit that is not hardwired, and a read
that follows returns 0. -/
def Obligations.MsrFromZeroRegisterClears : Prop :=
  ∀ (r : RegNum) (s : State), s.permitsAccess →
    ∃ u v, exec (.msrIfsr32El2 31) s = .next u ∧ exec (.mrsIfsr32El2 r) u = .next v ∧
      u.ifsr32Raw &&& ~~~hardwired s.cfg s.eae = 0 ∧ readX v r = 0

/-- R81, R82: a step at EL2 or EL3 with the register present ends in no fault, whatever is
fetched. -/
def Obligations.NoFaultAtEl2OrEl3 : Prop :=
  ∀ s : State, s.permitsAccess → stepIsSafe s = true

/-- R92's consequences: in a well-formed state an access completes exactly at an implemented EL2 or
EL3 with the register present, and with neither level implemented every access is Undefined. The
well-formedness of the launch state is the spec's own (D28, log 30). -/
def Obligations.AccessCompletesAtImplementedLevelsOnly : Prop :=
  ∀ (i : Instr) (s : State), s.wf = true →
    ((∃ u, exec i s = .next u) ↔
      s.cfg.featAA32EL1 = true ∧
        ((s.cfg.haveEL2 = true ∧ s.el = .el2) ∨ (s.cfg.haveEL3 = true ∧ s.el = .el3))) ∧
    (s.cfg.haveEL2 = false → s.cfg.haveEL3 = false → exec i s = .fault .undefined)

/-! ## The register: layouts, RES0 bits, fields (10_state.md) -/

/-- R35, R14, R15, R19: which bits are RES0 (a reserved row of the layout in force, ExT where it
classifies nothing, or every bit where EL2 is absent and not both EL3 is present and EL1 is capable
of AArch32), and what a read and a write do at each bit. The reading of RES0 is the spec's own (D3,
D17, GK3; log 16, 17). -/
def Obligations.Res0BitsReadZeroOrStore : Prop :=
  ∀ (c : Config) (e : Bool) (raw v : Word64) (j : Nat), j < 64 →
    ((res0Mask c e).getLsbD j = true ↔
      (c.haveEL2 = false ∧ ¬(c.haveEL3 = true ∧ c.el1AArch32Capable = true)) ∨
        fieldAt (layoutRows e) j = some .reserved ∨
        (j = 12 ∧ c.extClassification = false)) ∧
    ((res0Mask c e).getLsbD j = false →
      (readView c e raw).getLsbD j = raw.getLsbD j ∧
      (writeMerge c e raw v).getLsbD j = v.getLsbD j) ∧
    ((res0Mask c e).getLsbD j = true → c.res0Storage.getLsbD j = true →
      (readView c e raw).getLsbD j = raw.getLsbD j ∧
      (writeMerge c e raw v).getLsbD j = v.getLsbD j) ∧
    ((res0Mask c e).getLsbD j = true → c.res0Storage.getLsbD j = false →
      (readView c e raw).getLsbD j = false ∧
      (writeMerge c e raw v).getLsbD j = raw.getLsbD j)

/-- 10_state.md section 1.2: a change of EAE can change what is read at bits 10, 5 and 4 only. It
changes no raw bit, and once EAE has its first value again a read returns what it did (R13). -/
def Obligations.EaeChangesThreeBitsOfARead : Prop :=
  (∀ (c : Config) (raw : Word64) (j : Nat), j < 64 →
    (readView c true raw).getLsbD j ≠ (readView c false raw).getLsbD j →
    j = 10 ∨ j = 5 ∨ j = 4) ∧
  (∀ (s : State) (i : EnvInput), (s.setInputs i).eae = i.eae ∧
    (s.setInputs i).ifsr32Raw = s.ifsr32Raw ∧ s.takeInputs.ifsr32Raw = s.ifsr32Raw) ∧
  ∀ (a b c : RegNum) (s : State) (e : Bool), s.permitsAccess →
    ∃ u v w, exec (.mrsIfsr32El2 a) s = .next u ∧
      exec (.mrsIfsr32El2 b) { u with eae := e } = .next v ∧
      exec (.mrsIfsr32El2 c) { v with eae := s.eae } = .next w ∧
      w.ifsr32Raw = s.ifsr32Raw ∧ (a ≠ 31 → c ≠ 31 → readX w c = readX u a)

/-- R17, R19, R20: in a register that is not RES0 as a whole (EL2 is implemented, or EL3 is and EL1
is capable of AArch32), FnV and LPAE, and ExT where External aborts are classified, are plain
storage: what an MSR writes there an MRS reads back, also where EAE
changed between the two. -/
def Obligations.FnvExtLpaeArePlainStorage : Prop :=
  ∀ (t r : RegNum) (s : State) (e : Bool), s.permitsAccess →
    (s.cfg.haveEL2 = true ∨ (s.cfg.haveEL3 = true ∧ s.cfg.el1AArch32Capable = true)) →
    ∃ u v, exec (.msrIfsr32El2 t) s = .next u ∧
      exec (.mrsIfsr32El2 r) { u with eae := e } = .next v ∧
      (r ≠ 31 →
        fnvOf (readX v r) = fnvOf (readX s t) ∧ lpaeOf (readX v r) = lpaeOf (readX s t) ∧
        (s.cfg.extClassification = true → extOf (readX v r) = extOf (readX s t)))

/-- R3: without EL2, with EL3 and with EL1 capable of AArch32, the register is not RES0: an access at
EL3 writes and reads back every field of the layout in force (ExT where it is a field). -/
def Obligations.RegisterNotRes0WithoutEl2 : Prop :=
  ∀ (t r : RegNum) (s : State), s.cfg.featAA32EL1 = true → s.el = .el3 →
    s.cfg.haveEL2 = false → s.cfg.haveEL3 = true → s.cfg.el1AArch32Capable = true →
    registerIsRes0 s.cfg = false ∧
    ∃ u v, exec (.msrIfsr32El2 t) s = .next u ∧ exec (.mrsIfsr32El2 r) u = .next v ∧
      ∀ j : Nat, r ≠ 31 → j < 64 → fieldAt (layoutRows s.eae) j ≠ some .reserved →
        (fieldAt (layoutRows s.eae) j = some .ext → s.cfg.extClassification = true) →
        (readX v r).getLsbD j = (readX s t).getLsbD j

/-- R35, last paragraph: where EL2 is absent and R3's condition fails, Res0Mask is all ones, so at
every bit a read sees the raw bit and a write sets it exactly where the bit is storage. The spec's
own (D17, log 17). -/
def Obligations.WholeRegisterRes0WithoutEl2AndCondition : Prop :=
  ∀ (c : Config) (e : Bool) (raw v : Word64), c.haveEL2 = false →
    (c.haveEL3 = false ∨ c.el1AArch32Capable = false) →
    res0Mask c e = BitVec.allOnes 64 ∧
    ∀ j : Nat, j < 64 →
      (readView c e raw).getLsbD j = (raw.getLsbD j && c.res0Storage.getLsbD j) ∧
      (writeMerge c e raw v).getLsbD j =
        if c.res0Storage.getLsbD j then v.getLsbD j else raw.getLsbD j

/-- R12: bits [31:0] of the register are AArch32 IFSR: a write by MSR is the value IFSR then has, at
every bit that is not hardwired. "Same storage" is the spec's own reading (GK9, log 20). That the
view shows the raw bit at a hardwired bit too is the model's choice (log 35). -/
def Obligations.MsrWritesAArch32Ifsr : Prop :=
  ∀ (t : RegNum) (s : State), s.permitsAccess →
    ∃ u, exec (.msrIfsr32El2 t) s = .next u ∧
      ∀ j : Nat, j < 32 → u.ifsrAArch32.getLsbD j = u.ifsr32Raw.getLsbD j ∧
        ((hardwired s.cfg s.eae).getLsbD j = false →
          u.ifsrAArch32.getLsbD j = (readX s t).getLsbD j)

/-- R22, R29: FS is bit [10] above bits [3:0]; the image of a code has c[4] at bit 10, c[3:0] at bits
[3:0] and nothing else; STATUS is bits [5:0] and its image the code itself. -/
def Obligations.StatusCodePlacement : Prop :=
  (∀ (v : Word64) (j : Nat), j < 5 →
    (fsOf v).getLsbD j = if j = 4 then v.getLsbD 10 else v.getLsbD j) ∧
  (∀ (c : BitVec 5) (j : Nat), (fsImage c).getLsbD j =
    if j = 10 then c.getLsbD 4 else if j < 4 then c.getLsbD j else false) ∧
  (∀ c : BitVec 5, fsOf (fsImage c) = c) ∧
  (∀ (v : Word64) (j : Nat), j < 6 → (statusOf v).getLsbD j = v.getLsbD j) ∧
  (∀ (c : BitVec 6) (j : Nat), (statusImage c).getLsbD j = c.getLsbD j) ∧
  ∀ c : BitVec 6, statusOf (statusImage c) = c

/-- R23, R24, R30, R31 through R33: for every code the spec lists, a register value with that code is
read as the kind listed beside it, whatever its other bits; the parity or ECC codes only without
FEAT_RAS. The other fields of the reading are the layout of the caller's EAE, never of bit 9 (C2),
and bits 16, 12 and 9. -/
def Obligations.InterpNamesListedCodes : Prop :=
  ∀ v : Word64,
    (∀ (ras : Bool) (row : BitVec 5 × FaultKind), row ∈
      [(0b00001, .pcAlignment), (0b00010, .debug), (0b00011, .accessFlag .one),
       (0b00101, .translation .one), (0b00110, .accessFlag .two), (0b00111, .translation .two),
       (0b01000, .externalNotOnWalk), (0b01001, .domain .one), (0b01011, .domain .two),
       (0b01100, .externalOnWalk .one), (0b01101, .permission .one),
       (0b01110, .externalOnWalk .two), (0b01111, .permission .two), (0b10000, .tlbConflict),
       (0b10100, .lockdown)] →
      fsOf v = row.1 → (interp false ras v).kind = row.2) ∧
    (∀ row : BitVec 5 × FaultKind, row ∈
      [(0b11001, .parityNotOnWalk), (0b11100, .parityOnWalk .one), (0b11110, .parityOnWalk .two)] →
      fsOf v = row.1 → (interp false false v).kind = row.2) ∧
    (∀ (ras : Bool) (row : BitVec 6 × FaultKind), row ∈
      [(0b000000, .addressSizeTableBase), (0b000001, .addressSize .one),
       (0b000010, .addressSize .two), (0b000011, .addressSize .three),
       (0b000101, .translation .one), (0b000110, .translation .two),
       (0b000111, .translation .three), (0b001001, .accessFlag .one),
       (0b001010, .accessFlag .two), (0b001011, .accessFlag .three),
       (0b001101, .permission .one), (0b001110, .permission .two),
       (0b001111, .permission .three), (0b010000, .externalNotOnWalk),
       (0b010101, .externalOnWalk .one), (0b010110, .externalOnWalk .two),
       (0b010111, .externalOnWalk .three), (0b100001, .pcAlignment), (0b100010, .debug),
       (0b110000, .tlbConflict)] →
      statusOf v = row.1 → (interp true ras v).kind = row.2) ∧
    (∀ row : BitVec 6 × FaultKind, row ∈
      [(0b011000, .parityNotOnWalk), (0b011101, .parityOnWalk .one),
       (0b011110, .parityOnWalk .two), (0b011111, .parityOnWalk .three)] →
      statusOf v = row.1 → (interp true false v).kind = row.2) ∧
    ∀ e ras : Bool,
      (interp e ras v).layout = (if e then .long else .short) ∧
      (interp e ras v).fnv = v.getLsbD 16 ∧ (interp e ras v).ext = v.getLsbD 12 ∧
      (interp e ras v).lpae = v.getLsbD 9

/-- R25, R32: a register value is read as Reserved exactly where its code is one of the values listed
as reserved in every implementation, or, with FEAT_RAS, one of the parity or ECC codes. For FS the
latter is the spec's own reading (C4, log 28). -/
def Obligations.InterpReservedExactlyTheListed : Prop :=
  ∀ (ras : Bool) (v : Word64),
    ((interp false ras v).kind = .reserved ↔ fsOf v ∈ fsReserved ∨
      (ras = true ∧ fsOf v ∈ [0b11001#5, 0b11100#5, 0b11110#5])) ∧
    ((interp true ras v).kind = .reserved ↔ statusOf v ∈ statusReserved ∨
      (ras = true ∧ statusOf v ∈ [0b011000#6, 0b011101#6, 0b011110#6, 0b011111#6]))

/-- R54, R89: the Long layout has no Domain and no Lockdown fault, the Short layout no Address size
fault and nothing at level 3; and a code has its quoted meaning in the table of its layout exactly
where it is not reserved. -/
def Obligations.LayoutsNameTheirOwnFaults : Prop :=
  ∀ (ras : Bool) (v : Word64),
    (∀ l : Level, (interp true ras v).kind ≠ .domain l ∧
      (interp false ras v).kind ≠ .addressSize l) ∧
    (interp true ras v).kind ≠ .lockdown ∧
    (interp false ras v).kind ≠ .addressSizeTableBase ∧
    (interp false ras v).kind ∉
      [.translation .three, .accessFlag .three, .domain .three, .permission .three,
       .externalOnWalk .three, .parityOnWalk .three] ∧
    ∀ e : Bool, meaningText (layoutOf e) (interp e ras v).kind = none ↔
      (interp e ras v).kind = .reserved

/-- R34, clause by clause: a value hardware can record has no RES0 bit of its layout set, a code that
is not reserved, LPAE as the layout, FnV only on an External abort not on a walk, and ExT only where
the kind may be an External abort and is classified. The LPAE clause rests on the spec's own reading
(C1, D21; log 25), the ExT clause on D22 (log 27). -/
def Obligations.HardwareRecordedValues : Prop :=
  ∀ (c : Config) (e : Bool) (v : Word64),
    hwRecorded c e v = true ↔
      (∀ j : Nat, j < 64 → fieldAt (layoutRows e) j = some .reserved → v.getLsbD j = false) ∧
      (interp e c.featRAS v).kind ≠ .reserved ∧
      v.getLsbD 9 = e ∧
      ((interp e c.featRAS v).kind ≠ .externalNotOnWalk → v.getLsbD 16 = false) ∧
      (externalAbortClass (interp e c.featRAS v).kind = .notExternal → v.getLsbD 12 = false) ∧
      (c.extClassification = false → v.getLsbD 12 = false)

/-! ## Reset and the environment (10_state.md R40 to R43, 70_reset_and_hazards.md) -/

/-- R42: on a Warm reset every bit that is a field in either layout becomes UNKNOWN. That an UNKNOWN
value is a fresh draw, and that the machine right after reset holds a draw which no later reset
draws again, is the model's reading and numbering (log 3); Warm reset as an operation on a launch
state is the model's choice (log 19). -/
def Obligations.WarmResetLeavesFieldsUnknown : Prop :=
  (∀ launch : State,
    launch.warmReset.ifsr32Raw &&& 0x1163F = Config.unknown64 launch.draws &&& 0x1163F ∧
    launch.draws < launch.warmReset.draws) ∧
  ∃ n : Nat, n < State.reset.draws ∧
    State.reset.ifsr32Raw &&& 0x1163F = Config.unknown64 n &&& 0x1163F

/-- R43, R98, vectors Z1 to Z3: the first MRS after a reset returns the draw at every bit that is
not hardwired and 0 at every bit that is. The value at storage RES0 bits is the spec's own (D16);
the draw is log 3, and Warm reset as an operation on a launch state the model's choice (log 19). -/
def Obligations.FirstReadAfterReset : Prop :=
  ∀ (t : RegNum) (launch : State), launch.permitsAccess →
    ∃ u, exec (.mrsIfsr32El2 t) launch.warmReset = .next u ∧
      ∀ j : Nat, t ≠ 31 → j < 64 → (readX u t).getLsbD j =
        (!(hardwired launch.cfg launch.eae).getLsbD j &&
          (Config.unknown64 launch.draws).getLsbD j)

/-- R41 (a): the AArch32 side can leave any value in bits [31:0] while the processing element is not
at EL2 or EL3, and then changes nothing else; at EL2 and EL3 it cannot. Restricted to the values
hardware could have recorded (R34) it is the same event. The spec's own (D9, log 20); that the
AArch32 view shows the value also at a hardwired bit is the model's choice (log 35). -/
def Obligations.AArch32SideReplacesLowHalf : Prop :=
  ∀ (v32 : Word32) (s : State),
    ((s.el = .el2 ∨ s.el = .el3) → envAArch32 v32 s = none) ∧
    ((s.el = .el0 ∨ s.el = .el1) → ∃ u, envAArch32 v32 s = some u ∧
      u.ifsrAArch32 = v32 ∧
      (∀ j : Nat, 32 ≤ j → u.ifsr32Raw.getLsbD j = s.ifsr32Raw.getLsbD j) ∧
      { u with ifsr32Raw := s.ifsr32Raw } = s) ∧
    ∀ u : State, envPrefetchAbort v32 s = some u ↔
      envAArch32 v32 s = some u ∧ hwRecorded s.cfg s.eae (v32.zeroExtend 64) = true

/-- R40: the function tested is the supplied value, but that without EL2 its bit 0 is 0, so that it
meets the constraint in every state and an input that meets it is tested as supplied. The constraint
is the spec's own (D7, log 9). -/
def Obligations.NvxBitZeroNeedsEl2 : Prop :=
  ∀ s : State,
    (s.cfg.haveEL2 = false → (effectiveNVx s).getLsbD 0 = false) ∧
    (s.cfg.haveEL2 = true → effectiveNVx s = s.hcrNVx) ∧
    s.cfg.nvxAllowed (effectiveNVx s) = true ∧
    (s.cfg.nvxAllowed s.hcrNVx = true → (effectiveNVx s).getLsbD 0 = s.hcrNVx.getLsbD 0)

/-- R83: the conventional syndrome of the trap, field by field, and the report's other entries.
PRESUMED by the spec (GK6, log 29): no instruction of the model depends on it. -/
def Obligations.TrapSyndromeFields : Prop :=
  ∀ (t : RegNum) (s : State),
    trapEsr (.mrsIfsr32El2 t) = 0x62331401 ||| (t.zeroExtend 32 <<< 5) ∧
    trapEsr (.msrIfsr32El2 t) = 0x62331400 ||| (t.zeroExtend 32 <<< 5) ∧
    ∀ i : Instr, (trapEsr i).extractLsb' 26 6 = 0x18 ∧ (trapEsr i).getLsbD 25 = true ∧
      (trapEsr i).extractLsb' 0 25 = trapIssOf i ∧
      (trapReport i s).elrEl2 = s.pc ∧ (trapReport i s).toLevel = .el2

/-! ## The whole machine -/

/-- Every step keeps a well-formed state well-formed: memory canonical, pc and BASE at multiples of
4, the current Exception level implemented. -/
def Obligations.StepKeepsWellFormed : Prop :=
  ∀ s s' : State, s.wf = true → step s = .next s' → s'.wf = true

/-- The machine right after reset is well-formed and may access the register. The launch level and
BASE are the model's choice (log 2, 5, 6). -/
def Obligations.ResetIsWellFormed : Prop :=
  State.reset.wf = true ∧ State.reset.permitsAccess

/-- R11: the value of the register has no effect on execution in AArch64 state. Two states that
differ in it alone fetch the same, and their steps end alike: the same fault or refusal, or next
states that agree on all but the register and the general registers, where every general register
but the destination of an MRS agrees, and where after an MSR the register itself agrees at every bit
that is not hardwired. -/
def Obligations.RegisterValueHasNoEffect : Prop :=
  ∀ (s : State) (v : Word64),
    fetch (s.setIfsr32Raw v) = fetch s ∧
    match step s, step (s.setIfsr32Raw v) with
    | .next a, .next b =>
      agreeOutsideRegisters a b ∧
      (∀ r : RegNum, fetch s ≠ .ok (.mrsIfsr32El2 r) → readX a r = readX b r) ∧
      (∀ t : RegNum, fetch s = .ok (.msrIfsr32El2 t) →
        a.ifsr32Raw &&& ~~~hardwired s.cfg s.eae = b.ifsr32Raw &&& ~~~hardwired s.cfg s.eae)
    | .fault f, .fault g => f = g
    | .refused p, .refused q => p = q
    | _, _ => False

/-- R41, first sentence: in the steps of the machine only MSR IFSR32_EL2, <Xt> at EL2 or EL3 changes
the register, and then to WriteMerge of x[t]. That nothing else does is the spec's own (D9 (b), GK12;
log 21). -/
def Obligations.OnlyMsrChangesRegister : Prop :=
  ∀ s s' : State, step s = .next s' → s'.ifsr32Raw ≠ s.ifsr32Raw →
    (s.el = .el2 ∨ s.el = .el3) ∧
    ∃ t : RegNum, fetch s = .ok (.msrIfsr32El2 t) ∧
      s'.ifsr32Raw = writeMerge s.cfg s.eae s.ifsr32Raw (readX s t)

/-- A step changes a general register only as the destination of an MRS, and then to ReadView of the
register; XZR never changes (R38). -/
def Obligations.OnlyMrsChangesGeneralRegisters : Prop :=
  ∀ (s s' : State) (r : RegNum), step s = .next s' → readX s' r ≠ readX s r →
    r ≠ 31 ∧ fetch s = .ok (.mrsIfsr32El2 r) ∧
      readX s' r = readView s.cfg s.eae s.ifsr32Raw

/-- R37: nothing in scope writes PSTATE.EL; nor does any step change the configuration (R5) or a byte
of the program (R57), and a step that completes began at EL2 or EL3. -/
def Obligations.StepKeepsLevelConfigurationAndProgram : Prop :=
  ∀ s s' : State, step s = .next s' →
    s'.el = s.el ∧ (s.el = .el2 ∨ s.el = .el3) ∧ s'.cfg = s.cfg ∧ s'.draws = s.draws ∧
      sameMemory s' s

/-- R39, R84: neither instruction transfers control: a completed step leaves pc + 4 modulo 2^64. The
width and the wrap are the spec's own (D10, log 11). -/
def Obligations.PcAdvancesByFour : Prop :=
  ∀ s s' : State, step s = .next s' → s'.pc.toNat = (s.pc.toNat + 4) % 2 ^ 64

/-- R23, R30, R31: each FS and STATUS code with its image and its quoted meaning, read from any
register value with that code: the rows of R23 and R30 in every implementation, those of R31 without
FEAT_RAS, while with it their codes are reserved. The rows of R24 stand beside them without FEAT_RAS;
what their codes are with it is the spec's own reading (C4), in InterpReservedExactlyTheListed. -/
def Obligations.CodesHaveImagesAndMeanings : Prop :=
  ∀ v : Word64,
    (∀ (ras : Bool) (code : BitVec 5) (image : Word64) (meaning : String),
      (code, image, meaning) ∈
        [(0b00001, 0x001, "PC alignment fault."),
         (0b00010, 0x002, "Debug exception."),
         (0b00011, 0x003, "Access flag fault, level 1."),
         (0b00101, 0x005, "Translation fault, level 1."),
         (0b00110, 0x006, "Access flag fault, level 2."),
         (0b00111, 0x007, "Translation fault, level 2."),
         (0b01000, 0x008, "Synchronous External abort, not on translation table walk."),
         (0b01001, 0x009, "Domain fault, level 1."),
         (0b01011, 0x00B, "Domain fault, level 2."),
         (0b01100, 0x00C, "Synchronous External abort, on translation table walk, level 1."),
         (0b01101, 0x00D, "Permission fault, level 1."),
         (0b01110, 0x00E, "Synchronous External abort, on translation table walk, level 2."),
         (0b01111, 0x00F, "Permission fault, level 2."),
         (0b10000, 0x400, "TLB conflict abort."),
         (0b10100, 0x404, "IMPLEMENTATION DEFINED fault (Lockdown fault).")] →
      fsImage code = image ∧
        (fsOf v = code → meaningText .short (interp false ras v).kind = some meaning)) ∧
    (∀ (code : BitVec 5) (image : Word64) (meaning : String),
      (code, image, meaning) ∈
        [(0b11001, 0x409,
          "Synchronous parity or ECC error on memory access, not on translation table walk."),
         (0b11100, 0x40C, "Synchronous parity or ECC error on translation table walk, level 1."),
         (0b11110, 0x40E, "Synchronous parity or ECC error on translation table walk, level 2.")] →
      fsImage code = image ∧
        (fsOf v = code → meaningText .short (interp false false v).kind = some meaning)) ∧
    (∀ (ras : Bool) (code : BitVec 6) (image : Word64) (meaning : String),
      (code, image, meaning) ∈
        [(0b000000, 0x00, "Address size fault in translation table base register."),
         (0b000001, 0x01, "Address size fault, level 1."),
         (0b000010, 0x02, "Address size fault, level 2."),
         (0b000011, 0x03, "Address size fault, level 3."),
         (0b000101, 0x05, "Translation fault, level 1."),
         (0b000110, 0x06, "Translation fault, level 2."),
         (0b000111, 0x07, "Translation fault, level 3."),
         (0b001001, 0x09, "Access flag fault, level 1."),
         (0b001010, 0x0A, "Access flag fault, level 2."),
         (0b001011, 0x0B, "Access flag fault, level 3."),
         (0b001101, 0x0D, "Permission fault, level 1."),
         (0b001110, 0x0E, "Permission fault, level 2."),
         (0b001111, 0x0F, "Permission fault, level 3."),
         (0b010000, 0x10, "Synchronous External abort, not on translation table walk."),
         (0b010101, 0x15, "Synchronous External abort on translation table walk, level 1."),
         (0b010110, 0x16, "Synchronous External abort on translation table walk, level 2."),
         (0b010111, 0x17, "Synchronous External abort on translation table walk, level 3."),
         (0b100001, 0x21, "PC alignment fault."),
         (0b100010, 0x22, "Debug exception."),
         (0b110000, 0x30, "TLB conflict abort.")] →
      statusImage code = image ∧
        (statusOf v = code → meaningText .long (interp true ras v).kind = some meaning)) ∧
    ∀ (code : BitVec 6) (image : Word64) (meaning : String),
      (code, image, meaning) ∈
        [(0b011000, 0x18,
          "Synchronous parity or ECC error on memory access, not on translation table walk."),
         (0b011101, 0x1D,
          "Synchronous parity or ECC error on memory access on translation table walk, level 1."),
         (0b011110, 0x1E,
          "Synchronous parity or ECC error on memory access on translation table walk, level 2."),
         (0b011111, 0x1F,
          "Synchronous parity or ECC error on memory access on translation table walk, level 3.")] →
      statusImage code = image ∧
        (statusOf v = code →
          meaningText .long (interp true false v).kind = some meaning ∧
          (interp true true v).kind = .reserved)

/-- Two states that agree on all but the register and the general registers fetch the same, and their
steps end alike: the same fault or refusal, or next states that agree so again. So neither the
register (R11) nor a general register ever reaches the program counter, the level, the inputs, the
program or the outcome of a step. -/
def Obligations.StepKeepsAgreementOutsideRegisters : Prop :=
  ∀ a b : State, agreeOutsideRegisters a b →
    fetch a = fetch b ∧
    match step a, step b with
    | .next u, .next v => agreeOutsideRegisters u v
    | .fault f, .fault g => f = g
    | .refused p, .refused q => p = q
    | _, _ => False
end

