-- ==== Sys2Proof/Laws/Access.lean ====
section
/-! SUPPORT. What the access check decides, and everything an access can do (R70 to R74). -/

namespace Sys2Proof.Machine

/-- The check permits an access exactly at EL2 and EL3 with the register present. -/
theorem accessDecision_permitted_iff (s : State) :
    accessDecision s = .permitted ↔ s.permitsAccess := by
  unfold accessDecision State.permitsAccess
  cases s.cfg.featAA32EL1 <;> cases s.el <;> simp
  split <;> simp

/-- The check traps exactly at EL1 with the register present and bit 0 of NVx() set. -/
theorem accessDecision_trap_iff (s : State) :
    accessDecision s = .trapToEl2 ↔
      s.cfg.featAA32EL1 = true ∧ s.el = .el1 ∧ (effectiveNVx s).getLsbD 0 = true := by
  unfold accessDecision
  cases s.cfg.featAA32EL1 <;> cases s.el <;> simp

/-- An access that is permitted has its effect. -/
theorem accessRegister_of_permitsAccess {effect : State → State} {s : State}
    (h : s.permitsAccess) : accessRegister effect s = .next (effect s) := by
  simp [accessRegister, (accessDecision_permitted_iff s).mpr h]

/-- The access check looks at the configuration, the level and the NV controls alone (R74). -/
theorem accessDecision_congr {a b : State} (hc : a.cfg = b.cfg) (hl : a.el = b.el)
    (hn : a.hcrNVx = b.hcrNVx) : accessDecision a = accessDecision b := by
  unfold accessDecision effectiveNVx
  rw [hc, hl, hn]

/-- Everything an access can do. -/
theorem accessRegister_cases (effect : State → State) (s : State) :
    (s.permitsAccess ∧ accessRegister effect s = .next (effect s)) ∨
      (accessDecision s = .trapToEl2 ∧
        accessRegister effect s = .fault (.systemAccessTrap .el2 0x18)) ∨
      (accessDecision s = .undefined ∧ accessRegister effect s = .fault .undefined) := by
  cases h : accessDecision s with
  | undefined => exact .inr (.inr ⟨rfl, by simp [accessRegister, h, raiseUndefined]⟩)
  | trapToEl2 =>
    exact .inr (.inl ⟨rfl, by
      simp [accessRegister, h, raiseSystemAccessTrap, sysAccessTrapCode]⟩)
  | permitted =>
    have hp := (accessDecision_permitted_iff s).mp h
    exact .inl ⟨hp, accessRegister_of_permitsAccess hp⟩

/-- An access answers a next state only where it is permitted, and then it is its effect. -/
theorem accessRegister_next {effect : State → State} {s s' : State}
    (h : accessRegister effect s = .next s') : s.permitsAccess ∧ s' = effect s := by
  obtain ⟨hp, e⟩ | ⟨-, e⟩ | ⟨-, e⟩ := accessRegister_cases effect s
  · rw [e] at h; exact ⟨hp, (Host.Outcome.next.inj h).symm⟩
  · rw [e] at h; cases h
  · rw [e] at h; cases h

/-- No access is refused. -/
theorem accessRegister_not_refused (effect : State → State) (s : State) (r : Refusal) :
    accessRegister effect s ≠ .refused r := by
  obtain ⟨-, e⟩ | ⟨-, e⟩ | ⟨-, e⟩ := accessRegister_cases effect s <;> rw [e] <;> simp

end Sys2Proof.Machine
end

