-- ==== Sys2Proof/Laws/Memory.lean ====
section
/-! SUPPORT. Every memory operation keeps the canonical form, a byte written is read back, and every
other byte stays; then the same for an instruction word (R50). -/

namespace Sys2Proof.Machine

/-! ## The canonical form -/

theorem Memory.wf_cons {c : Host.Cell} {m : Memory} :
    Memory.wf (c :: m) = true ↔ c.1 < 2 ^ 64 ∧ (∀ d ∈ m, c.1 < d.1) ∧ Memory.wf m = true := by
  simp [Memory.wf, and_assoc]

/-- A cell of the written memory is the written cell or an old one. -/
theorem Memory.mem_writeByte {k : Nat} {b : Byte} {m : Memory} {c : Host.Cell}
    (h : c ∈ m.writeByte k b) : c = (k, b) ∨ c ∈ m := by
  induction m with
  | nil => simpa [Memory.writeByte] using h
  | cons d rest ih =>
    simp only [Memory.writeByte] at h
    split at h
    · simpa using h
    · split at h
      · rcases List.mem_cons.mp h with h | h
        · exact .inl h
        · exact .inr (List.mem_cons_of_mem _ h)
      · rcases List.mem_cons.mp h with h | h
        · exact .inr (by simp [h])
        · exact (ih h).imp id (List.mem_cons_of_mem _)

/-- Writing a byte keeps the canonical form. -/
theorem Memory.wf_writeByte {k : Nat} (hk : k < 2 ^ 64) (b : Byte) {m : Memory}
    (h : Memory.wf m = true) : Memory.wf (m.writeByte k b) = true := by
  induction m with
  | nil => exact Memory.wf_cons.mpr ⟨hk, by simp, rfl⟩
  | cons d rest ih =>
    obtain ⟨hd, hlt, hrest⟩ := Memory.wf_cons.mp h
    simp only [Memory.writeByte]
    split
    · rename_i hka
      refine Memory.wf_cons.mpr ⟨hk, fun c hc => ?_, h⟩
      rcases List.mem_cons.mp hc with hc | hc
      · simpa [hc] using hka
      · exact Nat.lt_trans hka (hlt c hc)
    · split
      · rename_i heq
        exact Memory.wf_cons.mpr ⟨hk, fun c hc => by simpa [heq] using hlt c hc, hrest⟩
      · rename_i hnlt hne
        refine Memory.wf_cons.mpr ⟨hd, fun c hc => ?_, ih hrest⟩
        rcases Memory.mem_writeByte hc with hc | hc
        · subst hc; show d.1 < k; omega
        · exact hlt c hc

/-- Placing bytes keeps the canonical form. -/
theorem Memory.wf_placeBytes (bs : List Byte) (a : Word64) {m : Memory}
    (h : Memory.wf m = true) : Memory.wf (m.placeBytes bs a) = true := by
  induction bs generalizing a m with
  | nil => exact h
  | cons b bs ih => exact ih (a + 1) (Memory.wf_writeByte a.isLt b h)

/-- Placing an instruction word keeps the canonical form. -/
theorem Memory.wf_placeWord (w : Word32) (a : Word64) {m : Memory} (h : Memory.wf m = true) :
    Memory.wf (m.placeWord w a) = true :=
  Memory.wf_placeBytes _ a h

/-- Placing a program keeps the canonical form. -/
theorem Memory.wf_placeWords (ws : List Word32) (a : Word64) {m : Memory}
    (h : Memory.wf m = true) : Memory.wf (m.placeWords ws a) = true := by
  induction ws generalizing a m with
  | nil => exact h
  | cons w ws ih => exact ih (a + 4) (Memory.wf_placeWord w a h)

/-- Reset memory has the canonical form. -/
theorem Memory.wf_reset : Memory.wf State.reset.mem = true := rfl

/-! ## Reading what was written -/

/-- A byte just written is read back. -/
theorem Memory.readByte_writeByte_self (k : Nat) (b : Byte) (m : Memory) :
    (m.writeByte k b).readByte k = some b := by
  induction m with
  | nil => simp [Memory.writeByte, Memory.readByte]
  | cons d rest ih =>
    simp only [Memory.writeByte]
    split
    · simp [Memory.readByte]
    · split
      · simp [Memory.readByte]
      · rename_i hne
        simp [Memory.readByte, Ne.symm hne, ih]

/-- Every other byte stays. -/
theorem Memory.readByte_writeByte_of_ne {k j : Nat} (h : j ≠ k) (b : Byte) (m : Memory) :
    (m.writeByte k b).readByte j = m.readByte j := by
  induction m with
  | nil => simp [Memory.writeByte, Memory.readByte, Ne.symm h]
  | cons d rest ih =>
    simp only [Memory.writeByte]
    split
    · simp [Memory.readByte, Ne.symm h]
    · split
      · rename_i heq
        simp [Memory.readByte, ← heq, Ne.symm h]
      · simp [Memory.readByte, ih]

/-- The bytes of a word, put together again, are the word (R50). -/
theorem wordOfBytes_bytesOfWord (w : Word32) :
    wordOfBytes (w.extractLsb' 0 8) (w.extractLsb' 8 8) (w.extractLsb' 16 8) (w.extractLsb' 24 8)
      = w := by
  refine BitVec.eq_of_getLsbD_eq fun i hi => ?_
  simp only [wordOfBytes, BitVec.getLsbD_append, BitVec.getLsbD_extractLsb']
  by_cases h0 : i < 8
  · simp [h0]
  · by_cases h1 : i < 16
    · have : i - 8 < 8 := by omega
      have e : 8 + (i - 8) = i := by omega
      simp [h0, this, e]
    · by_cases h2 : i < 24
      · have h : ¬ i - 8 < 8 := by omega
        have : i - 8 - 8 < 8 := by omega
        have e : 16 + (i - 8 - 8) = i := by omega
        simp [h0, h, this, e]
      · have h : ¬ i - 8 < 8 := by omega
        have h' : ¬ i - 8 - 8 < 8 := by omega
        have : i - 8 - 8 - 8 < 8 := by omega
        have e : 24 + (i - 8 - 8 - 8) = i := by omega
        simp [h0, h, h', this, e]

/-- An instruction word just placed is read back. -/
theorem Memory.readWord_placeWord (w : Word32) (a : Word64) (m : Memory) :
    (m.placeWord w a).readWord a = some w := by
  have e2 : a + 1 + 1 = a + 2 := by bv_omega
  have e3 : a + 2 + 1 = a + 3 := by bv_omega
  have n01 : a.toNat ≠ (a + 1).toNat := by bv_omega
  have n02 : a.toNat ≠ (a + 2).toNat := by bv_omega
  have n03 : a.toNat ≠ (a + 3).toNat := by bv_omega
  have n12 : (a + 1).toNat ≠ (a + 2).toNat := by bv_omega
  have n13 : (a + 1).toNat ≠ (a + 3).toNat := by bv_omega
  have n23 : (a + 2).toNat ≠ (a + 3).toNat := by bv_omega
  simp only [Memory.readWord, Memory.placeWord, bytesOfWord, Memory.placeBytes, e2, e3,
    Memory.readByte_writeByte_self, Memory.readByte_writeByte_of_ne n01,
    Memory.readByte_writeByte_of_ne n02, Memory.readByte_writeByte_of_ne n03,
    Memory.readByte_writeByte_of_ne n12, Memory.readByte_writeByte_of_ne n13,
    Memory.readByte_writeByte_of_ne n23, wordOfBytes_bytesOfWord]

/-- Placing a word leaves every byte outside its four addresses as it was. -/
theorem Memory.readByte_placeWord_of_ne {j : Nat} {a : Word64} (h0 : j ≠ a.toNat)
    (h1 : j ≠ (a + 1).toNat) (h2 : j ≠ (a + 2).toNat) (h3 : j ≠ (a + 3).toNat) (w : Word32)
    (m : Memory) : (m.placeWord w a).readByte j = m.readByte j := by
  have e2 : a + 1 + 1 = a + 2 := by bv_omega
  have e3 : a + 2 + 1 = a + 3 := by bv_omega
  simp only [Memory.placeWord, bytesOfWord, Memory.placeBytes, e2, e3,
    Memory.readByte_writeByte_of_ne h0, Memory.readByte_writeByte_of_ne h1,
    Memory.readByte_writeByte_of_ne h2, Memory.readByte_writeByte_of_ne h3]

end Sys2Proof.Machine
end

