-- ==== Sys2Proof/Laws/State.lean ====
section
/-! SUPPORT. What each update of State does to each field, one lemma per field per update, so that no
later proof unfolds a record update. -/

namespace Sys2Proof.Machine

/-! ## advancePc (R39) -/

@[simp] theorem State.advancePc_ifsr32Raw (s : State) : (s.advancePc).ifsr32Raw = s.ifsr32Raw := rfl

@[simp] theorem State.advancePc_x (s : State) : (s.advancePc).x = s.x := rfl

@[simp] theorem State.advancePc_pc (s : State) : (s.advancePc).pc = s.pc + 4 := rfl

@[simp] theorem State.advancePc_el (s : State) : (s.advancePc).el = s.el := rfl

@[simp] theorem State.advancePc_hcrNVx (s : State) : (s.advancePc).hcrNVx = s.hcrNVx := rfl

@[simp] theorem State.advancePc_eae (s : State) : (s.advancePc).eae = s.eae := rfl

@[simp] theorem State.advancePc_upcoming (s : State) : (s.advancePc).upcoming = s.upcoming := rfl

@[simp] theorem State.advancePc_draws (s : State) : (s.advancePc).draws = s.draws := rfl

@[simp] theorem State.advancePc_mem (s : State) : (s.advancePc).mem = s.mem := rfl

@[simp] theorem State.advancePc_cfg (s : State) : (s.advancePc).cfg = s.cfg := rfl

/-! ## setIfsr32Raw (R10) -/

@[simp] theorem State.setIfsr32Raw_ifsr32Raw (v : Word64) (s : State) :
    (s.setIfsr32Raw v).ifsr32Raw = v := rfl

@[simp] theorem State.setIfsr32Raw_x (v : Word64) (s : State) : (s.setIfsr32Raw v).x = s.x := rfl

@[simp] theorem State.setIfsr32Raw_pc (v : Word64) (s : State) : (s.setIfsr32Raw v).pc = s.pc := rfl

@[simp] theorem State.setIfsr32Raw_el (v : Word64) (s : State) : (s.setIfsr32Raw v).el = s.el := rfl

@[simp] theorem State.setIfsr32Raw_hcrNVx (v : Word64) (s : State) :
    (s.setIfsr32Raw v).hcrNVx = s.hcrNVx := rfl

@[simp] theorem State.setIfsr32Raw_eae (v : Word64) (s : State) :
    (s.setIfsr32Raw v).eae = s.eae := rfl

@[simp] theorem State.setIfsr32Raw_upcoming (v : Word64) (s : State) :
    (s.setIfsr32Raw v).upcoming = s.upcoming := rfl

@[simp] theorem State.setIfsr32Raw_draws (v : Word64) (s : State) :
    (s.setIfsr32Raw v).draws = s.draws := rfl

@[simp] theorem State.setIfsr32Raw_mem (v : Word64) (s : State) :
    (s.setIfsr32Raw v).mem = s.mem := rfl

@[simp] theorem State.setIfsr32Raw_cfg (v : Word64) (s : State) :
    (s.setIfsr32Raw v).cfg = s.cfg := rfl

/-! ## setInputs (R13, R40) -/

@[simp] theorem State.setInputs_ifsr32Raw (i : EnvInput) (s : State) :
    (s.setInputs i).ifsr32Raw = s.ifsr32Raw := rfl

@[simp] theorem State.setInputs_x (i : EnvInput) (s : State) : (s.setInputs i).x = s.x := rfl

@[simp] theorem State.setInputs_pc (i : EnvInput) (s : State) : (s.setInputs i).pc = s.pc := rfl

@[simp] theorem State.setInputs_el (i : EnvInput) (s : State) : (s.setInputs i).el = s.el := rfl

@[simp] theorem State.setInputs_hcrNVx (i : EnvInput) (s : State) :
    (s.setInputs i).hcrNVx = i.hcrNVx := rfl

@[simp] theorem State.setInputs_eae (i : EnvInput) (s : State) : (s.setInputs i).eae = i.eae := rfl

@[simp] theorem State.setInputs_upcoming (i : EnvInput) (s : State) :
    (s.setInputs i).upcoming = s.upcoming := rfl

@[simp] theorem State.setInputs_draws (i : EnvInput) (s : State) :
    (s.setInputs i).draws = s.draws := rfl

@[simp] theorem State.setInputs_mem (i : EnvInput) (s : State) : (s.setInputs i).mem = s.mem := rfl

@[simp] theorem State.setInputs_cfg (i : EnvInput) (s : State) : (s.setInputs i).cfg = s.cfg := rfl

/-! ## warmReset (R42, R43, R95) -/

@[simp] theorem State.warmReset_ifsr32Raw (s : State) :
    (s.warmReset).ifsr32Raw = Config.unknown64 s.draws := rfl

@[simp] theorem State.warmReset_x (s : State) : (s.warmReset).x = s.x := rfl

@[simp] theorem State.warmReset_pc (s : State) : (s.warmReset).pc = s.pc := rfl

@[simp] theorem State.warmReset_el (s : State) : (s.warmReset).el = s.el := rfl

@[simp] theorem State.warmReset_hcrNVx (s : State) : (s.warmReset).hcrNVx = s.hcrNVx := rfl

@[simp] theorem State.warmReset_eae (s : State) : (s.warmReset).eae = s.eae := rfl

@[simp] theorem State.warmReset_upcoming (s : State) : (s.warmReset).upcoming = s.upcoming := rfl

@[simp] theorem State.warmReset_draws (s : State) : (s.warmReset).draws = s.draws + 1 := rfl

@[simp] theorem State.warmReset_mem (s : State) : (s.warmReset).mem = s.mem := rfl

@[simp] theorem State.warmReset_cfg (s : State) : (s.warmReset).cfg = s.cfg := rfl

/-! ## withFetchWord (log 32) -/

@[simp] theorem State.withFetchWord_ifsr32Raw (s : State) (nbits w : Nat) :
    (s.withFetchWord nbits w).ifsr32Raw = s.ifsr32Raw := rfl

@[simp] theorem State.withFetchWord_x (s : State) (nbits w : Nat) :
    (s.withFetchWord nbits w).x = s.x := rfl

@[simp] theorem State.withFetchWord_pc (s : State) (nbits w : Nat) :
    (s.withFetchWord nbits w).pc = alignDown s.pc := rfl

@[simp] theorem State.withFetchWord_el (s : State) (nbits w : Nat) :
    (s.withFetchWord nbits w).el = s.el := rfl

@[simp] theorem State.withFetchWord_hcrNVx (s : State) (nbits w : Nat) :
    (s.withFetchWord nbits w).hcrNVx = s.hcrNVx := rfl

@[simp] theorem State.withFetchWord_eae (s : State) (nbits w : Nat) :
    (s.withFetchWord nbits w).eae = s.eae := rfl

@[simp] theorem State.withFetchWord_upcoming (s : State) (nbits w : Nat) :
    (s.withFetchWord nbits w).upcoming = s.upcoming := rfl

@[simp] theorem State.withFetchWord_draws (s : State) (nbits w : Nat) :
    (s.withFetchWord nbits w).draws = s.draws := rfl

@[simp] theorem State.withFetchWord_mem (s : State) (nbits w : Nat) :
    (s.withFetchWord nbits w).mem = s.mem.placeWord (tableWord nbits w) (alignDown s.pc) := rfl

@[simp] theorem State.withFetchWord_cfg (s : State) (nbits w : Nat) :
    (s.withFetchWord nbits w).cfg = s.cfg := rfl

/-! ## loadProgram (R53, R102) -/

@[simp] theorem State.loadProgram_ifsr32Raw (ws : List Word32) (s : State) :
    (loadProgram ws s).ifsr32Raw = s.ifsr32Raw := rfl

@[simp] theorem State.loadProgram_x (ws : List Word32) (s : State) :
    (loadProgram ws s).x = s.x := rfl

@[simp] theorem State.loadProgram_pc (ws : List Word32) (s : State) :
    (loadProgram ws s).pc = s.cfg.base := rfl

@[simp] theorem State.loadProgram_el (ws : List Word32) (s : State) :
    (loadProgram ws s).el = s.el := rfl

@[simp] theorem State.loadProgram_hcrNVx (ws : List Word32) (s : State) :
    (loadProgram ws s).hcrNVx = s.hcrNVx := rfl

@[simp] theorem State.loadProgram_eae (ws : List Word32) (s : State) :
    (loadProgram ws s).eae = s.eae := rfl

@[simp] theorem State.loadProgram_upcoming (ws : List Word32) (s : State) :
    (loadProgram ws s).upcoming = s.upcoming := rfl

@[simp] theorem State.loadProgram_draws (ws : List Word32) (s : State) :
    (loadProgram ws s).draws = s.draws := rfl

@[simp] theorem State.loadProgram_mem (ws : List Word32) (s : State) :
    (loadProgram ws s).mem = s.mem.placeWords ws s.cfg.base := rfl

@[simp] theorem State.loadProgram_cfg (ws : List Word32) (s : State) :
    (loadProgram ws s).cfg = s.cfg := rfl

/-! ## takeInputs (R13, R40) -/

/-- With nothing scheduled the inputs stay as they are. -/
theorem State.takeInputs_of_nil {s : State} (h : s.upcoming = []) : s.takeInputs = s := by
  simp [State.takeInputs, h]

/-- With an input scheduled, the inputs are that one and the schedule is what follows it. -/
theorem State.takeInputs_of_cons {s : State} {i : EnvInput} {rest : List EnvInput}
    (h : s.upcoming = i :: rest) : s.takeInputs = { s.setInputs i with upcoming := rest } := by
  simp [State.takeInputs, h]

/-- Everything `takeInputs` can do: it changes the inputs and the schedule, and nothing else. -/
theorem State.takeInputs_cases (s : State) :
    (s.upcoming = [] ∧ s.takeInputs = s) ∨
      ∃ i rest, s.upcoming = i :: rest ∧
        s.takeInputs = { s with eae := i.eae, hcrNVx := i.hcrNVx, upcoming := rest } := by
  cases h : s.upcoming with
  | nil => exact .inl ⟨rfl, takeInputs_of_nil h⟩
  | cons i rest => exact .inr ⟨i, rest, rfl, takeInputs_of_cons h⟩

@[simp] theorem State.takeInputs_ifsr32Raw (s : State) : s.takeInputs.ifsr32Raw = s.ifsr32Raw := by
  obtain ⟨-, h⟩ | ⟨i, rest, -, h⟩ := s.takeInputs_cases <;> rw [h]

@[simp] theorem State.takeInputs_x (s : State) : s.takeInputs.x = s.x := by
  obtain ⟨-, h⟩ | ⟨i, rest, -, h⟩ := s.takeInputs_cases <;> rw [h]

@[simp] theorem State.takeInputs_pc (s : State) : s.takeInputs.pc = s.pc := by
  obtain ⟨-, h⟩ | ⟨i, rest, -, h⟩ := s.takeInputs_cases <;> rw [h]

@[simp] theorem State.takeInputs_el (s : State) : s.takeInputs.el = s.el := by
  obtain ⟨-, h⟩ | ⟨i, rest, -, h⟩ := s.takeInputs_cases <;> rw [h]

@[simp] theorem State.takeInputs_draws (s : State) : s.takeInputs.draws = s.draws := by
  obtain ⟨-, h⟩ | ⟨i, rest, -, h⟩ := s.takeInputs_cases <;> rw [h]

@[simp] theorem State.takeInputs_mem (s : State) : s.takeInputs.mem = s.mem := by
  obtain ⟨-, h⟩ | ⟨i, rest, -, h⟩ := s.takeInputs_cases <;> rw [h]

@[simp] theorem State.takeInputs_cfg (s : State) : s.takeInputs.cfg = s.cfg := by
  obtain ⟨-, h⟩ | ⟨i, rest, -, h⟩ := s.takeInputs_cases <;> rw [h]

end Sys2Proof.Machine
end

