-- ==== Sys2Proof/Laws/Operands.lean ====
section
/-! SUPPORT. What reading and writing a general register does (R38). -/

namespace Sys2Proof.Machine

/-- Number 31 is the only one that names no general register. -/
theorem toNat_lt_31_of_ne {t : RegNum} (h : t ≠ 31) : t.toNat < 31 := by
  have : t.toNat ≠ 31 := fun h' => h (BitVec.eq_of_toNat_eq h')
  have := t.isLt
  omega

@[simp] theorem readX_xzr (s : State) : readX s 31#5 = 0 := rfl

@[simp] theorem writeX_xzr (v : Word64) (s : State) : writeX 31#5 v s = s := rfl

theorem readX_of_lt {s : State} {t : RegNum} (h : t.toNat < 31) : readX s t = s.x[t.toNat] := by
  simp [readX, h]

theorem writeX_of_lt {s : State} {t : RegNum} {v : Word64} (h : t.toNat < 31) :
    writeX t v s = { s with x := s.x.set t.toNat v } := by
  simp [writeX, h]

/-- Everything a register write can do: it discards the value, or it sets one general register. -/
theorem writeX_cases (t : RegNum) (v : Word64) (s : State) :
    (t = 31 ∧ writeX t v s = s) ∨
      ∃ h : t.toNat < 31, writeX t v s = { s with x := s.x.set t.toNat v } := by
  by_cases ht : t = 31
  · subst ht; exact .inl ⟨rfl, rfl⟩
  · exact .inr ⟨toNat_lt_31_of_ne ht, writeX_of_lt _⟩

/-- Reading back the register just written. -/
theorem readX_writeX_self {t : RegNum} (h : t ≠ 31) (v : Word64) (s : State) :
    readX (writeX t v s) t = v := by
  have hlt := toNat_lt_31_of_ne h
  simp [readX, writeX, hlt]

/-- Reading another register. -/
theorem readX_writeX_of_ne {t u : RegNum} (h : u ≠ t) (v : Word64) (s : State) :
    readX (writeX t v s) u = readX s u := by
  have hne : t.toNat ≠ u.toNat := fun h' => h (BitVec.eq_of_toNat_eq h'.symm)
  unfold readX writeX
  by_cases ht : t.toNat < 31 <;> by_cases hu : u.toNat < 31 <;> simp [ht, hu, hne]

@[simp] theorem writeX_ifsr32Raw (t : RegNum) (v : Word64) (s : State) :
    (writeX t v s).ifsr32Raw = s.ifsr32Raw := by
  obtain ⟨-, h⟩ | ⟨_, h⟩ := writeX_cases t v s <;> rw [h]

@[simp] theorem writeX_pc (t : RegNum) (v : Word64) (s : State) :
    (writeX t v s).pc = s.pc := by
  obtain ⟨-, h⟩ | ⟨_, h⟩ := writeX_cases t v s <;> rw [h]

@[simp] theorem writeX_el (t : RegNum) (v : Word64) (s : State) :
    (writeX t v s).el = s.el := by
  obtain ⟨-, h⟩ | ⟨_, h⟩ := writeX_cases t v s <;> rw [h]

@[simp] theorem writeX_hcrNVx (t : RegNum) (v : Word64) (s : State) :
    (writeX t v s).hcrNVx = s.hcrNVx := by
  obtain ⟨-, h⟩ | ⟨_, h⟩ := writeX_cases t v s <;> rw [h]

@[simp] theorem writeX_eae (t : RegNum) (v : Word64) (s : State) :
    (writeX t v s).eae = s.eae := by
  obtain ⟨-, h⟩ | ⟨_, h⟩ := writeX_cases t v s <;> rw [h]

@[simp] theorem writeX_upcoming (t : RegNum) (v : Word64) (s : State) :
    (writeX t v s).upcoming = s.upcoming := by
  obtain ⟨-, h⟩ | ⟨_, h⟩ := writeX_cases t v s <;> rw [h]

@[simp] theorem writeX_draws (t : RegNum) (v : Word64) (s : State) :
    (writeX t v s).draws = s.draws := by
  obtain ⟨-, h⟩ | ⟨_, h⟩ := writeX_cases t v s <;> rw [h]

@[simp] theorem writeX_mem (t : RegNum) (v : Word64) (s : State) :
    (writeX t v s).mem = s.mem := by
  obtain ⟨-, h⟩ | ⟨_, h⟩ := writeX_cases t v s <;> rw [h]

@[simp] theorem writeX_cfg (t : RegNum) (v : Word64) (s : State) :
    (writeX t v s).cfg = s.cfg := by
  obtain ⟨-, h⟩ | ⟨_, h⟩ := writeX_cases t v s <;> rw [h]

/-- A register read depends on the general registers alone. -/
theorem readX_congr {s s' : State} (h : s.x = s'.x) (t : RegNum) : readX s t = readX s' t := by
  simp [readX, h]

@[simp] theorem readX_advancePc (s : State) (t : RegNum) : readX s.advancePc t = readX s t := rfl

@[simp] theorem readX_setIfsr32Raw (v : Word64) (s : State) (t : RegNum) :
    readX (s.setIfsr32Raw v) t = readX s t := rfl

@[simp] theorem readX_takeInputs (s : State) (t : RegNum) : readX s.takeInputs t = readX s t :=
  readX_congr (State.takeInputs_x s) t

@[simp] theorem readX_warmReset (s : State) (t : RegNum) : readX s.warmReset t = readX s t := rfl

end Sys2Proof.Machine
end

