-- ==== Sys2Proof/Laws/PerInstr.lean ====
section
/-! SUPPORT. Statements made per instruction. Family `EncodedFields`: the word of an instruction is of
the System register move form, names IFSR32_EL2, carries L as the direction and Rt as the operand
(R61 to R64). -/

namespace Sys2Proof.Laws.EncodedFields

/-- What the word of an instruction carries in each field. -/
def Statement : Instr → Prop
  | .mrsIfsr32El2 t =>
    sysMoveForm (encodeWord (.mrsIfsr32El2 t)) = true ∧
      sysRegNameOf (encodeWord (.mrsIfsr32El2 t)) = ifsr32El2Name ∧
      readBit (encodeWord (.mrsIfsr32El2 t)) = true ∧ rtOf (encodeWord (.mrsIfsr32El2 t)) = t
  | .msrIfsr32El2 t =>
    sysMoveForm (encodeWord (.msrIfsr32El2 t)) = true ∧
      sysRegNameOf (encodeWord (.msrIfsr32El2 t)) = ifsr32El2Name ∧
      readBit (encodeWord (.msrIfsr32El2 t)) = false ∧ rtOf (encodeWord (.msrIfsr32El2 t)) = t

/-- The fields of MRS <Xt>, IFSR32_EL2 (R62). -/
theorem mrsIfsr32El2 (t : RegNum) : Statement (.mrsIfsr32El2 t) := by
  revert t
  simp only [Statement]
  decide

/-- The fields of MSR IFSR32_EL2, <Xt> (R63). -/
theorem msrIfsr32El2 (t : RegNum) : Statement (.msrIfsr32El2 t) := by
  revert t
  simp only [Statement]
  decide

end Sys2Proof.Laws.EncodedFields
end

