-- ==== Sys2Proof/Laws/Register.lean ====
section
/-! SUPPORT. The masks of R35 bit by bit, and the laws of ReadView and WriteMerge. -/

namespace Sys2Proof.Machine

/-- A hardwired bit is a RES0 bit that is not storage. -/
theorem hardwired_bit (c : Config) (e : Bool) {i : Nat} (hi : i < 64) :
    (hardwired c e).getLsbD i = ((res0Mask c e).getLsbD i && !c.res0Storage.getLsbD i) := by
  simp [hardwired, hi]

/-- A read sees 0 at a hardwired bit and the raw bit elsewhere. -/
theorem readView_bit (c : Config) (e : Bool) (raw : Word64) (i : Nat) :
    (readView c e raw).getLsbD i = (raw.getLsbD i && !(hardwired c e).getLsbD i) := by
  by_cases hi : i < 64
  · simp [readView, hi]
  · simp [readView, BitVec.getLsbD_of_ge _ i (by omega : 64 ≤ i)]

/-- A write leaves a hardwired bit as it was and sets every other bit. -/
theorem writeMerge_bit (c : Config) (e : Bool) (raw v : Word64) (i : Nat) :
    (writeMerge c e raw v).getLsbD i =
      if (hardwired c e).getLsbD i then raw.getLsbD i else v.getLsbD i := by
  by_cases hi : i < 64
  · simp only [writeMerge, BitVec.getLsbD_or, BitVec.getLsbD_and, BitVec.getLsbD_not, hi]
    cases (hardwired c e).getLsbD i <;> simp
  · simp [writeMerge, BitVec.getLsbD_of_ge _ i (by omega : 64 ≤ i)]

/-- Two words are equal when every bit below 64 is. -/
theorem word64_ext {v w : Word64} (h : ∀ i < 64, v.getLsbD i = w.getLsbD i) : v = w :=
  BitVec.eq_of_getLsbD_eq fun i hi => h i hi

/-- Law L1 of 95_test_vectors.md: a read after a write sees the value written, less the hardwired
bits. -/
theorem readView_writeMerge (c : Config) (e : Bool) (raw v : Word64) :
    readView c e (writeMerge c e raw v) = readView c e v := by
  refine word64_ext fun i _ => ?_
  rw [readView_bit, readView_bit, writeMerge_bit]
  cases (hardwired c e).getLsbD i <;> simp

/-- Law L2: writing back what was read changes nothing. -/
theorem writeMerge_readView (c : Config) (e : Bool) (raw : Word64) :
    writeMerge c e raw (readView c e raw) = raw := by
  refine word64_ext fun i _ => ?_
  rw [writeMerge_bit, readView_bit]
  cases (hardwired c e).getLsbD i <;> simp

/-- Law L3: a read view seen again is itself. -/
theorem readView_readView (c : Config) (e : Bool) (raw : Word64) :
    readView c e (readView c e raw) = readView c e raw := by
  refine word64_ext fun i _ => ?_
  rw [readView_bit, readView_bit]
  cases (hardwired c e).getLsbD i <;> simp

/-- A value with no bit at a RES0 position is read as it is (law L4's core). -/
theorem readView_of_no_res0 {c : Config} {e : Bool} {v : Word64} (h : v &&& res0Mask c e = 0) :
    readView c e v = v := by
  refine word64_ext fun i hi => ?_
  have hb := congrArg (·.getLsbD i) h
  simp only [BitVec.getLsbD_and] at hb
  rw [readView_bit, hardwired_bit c e hi]
  revert hb
  cases v.getLsbD i <;> cases (res0Mask c e).getLsbD i <;> simp

/-- With every RES0 bit storage, nothing is hardwired (R35). -/
theorem hardwired_of_all_storage {c : Config} (h : c.res0Storage = BitVec.allOnes 64) (e : Bool) :
    hardwired c e = 0 := by
  simp [hardwired, h]

/-- The layout tables of R14 and R15 and the masks printed under them say the same. -/
theorem layoutFields_eq_rows (e : Bool) (i : Fin 64) :
    (layoutFields e).getLsbD i = (fieldAt (layoutRows e) i != some .reserved) := by
  revert i; cases e <;> decide

/-- The same for the RES0 mask. -/
theorem layoutRes0_eq_rows (e : Bool) (i : Fin 64) :
    (layoutRes0 e).getLsbD i = (fieldAt (layoutRows e) i == some .reserved) := by
  revert i; cases e <;> decide

/-- The whole register is RES0 exactly where EL2 is absent and the condition of R3 fails (R35). -/
theorem registerIsRes0_iff (c : Config) :
    registerIsRes0 c = true ↔
      c.haveEL2 = false ∧ ¬(c.haveEL3 = true ∧ c.el1AArch32Capable = true) := by
  unfold registerIsRes0
  cases c.haveEL2 <;> cases c.haveEL3 <;> cases c.el1AArch32Capable <;> decide

/-- A bit of Res0Mask: the whole register, a reserved row of the layout, or an unclassified ExT. -/
theorem res0Mask_bit (c : Config) (e : Bool) {i : Nat} (hi : i < 64) :
    (res0Mask c e).getLsbD i =
      (registerIsRes0 c || fieldAt (layoutRows e) i == some .reserved ||
        (decide (i = 12) && !c.extClassification)) := by
  unfold res0Mask
  cases registerIsRes0 c
  · have hx : ∀ b : Bool, ∀ j : Fin 64,
        (if b = true then 0 else extMask).getLsbD j = (decide (j.1 = 12) && !b) := by decide
    simp only [Bool.false_eq_true, if_false, BitVec.getLsbD_or, layoutRes0_eq_rows e ⟨i, hi⟩,
      hx _ ⟨i, hi⟩, Bool.false_or]
  · rw [if_pos rfl, BitVec.getLsbD_allOnes, decide_eq_true hi]
    rfl

end Sys2Proof.Machine
end

