-- ==== Sys2Proof/Laws/Step.lean ====
section
/-! SUPPORT. Everything an instruction and a step can do, said once. -/

namespace Sys2Proof.Machine

/-- MRS where access is permitted (R70). -/
theorem exec_mrs_of_permitsAccess {t : RegNum} {s : State} (h : s.permitsAccess) :
    exec (.mrsIfsr32El2 t) s =
      .next (writeX t (readView s.cfg s.eae s.ifsr32Raw) s).advancePc := by
  rw [exec, execMrsIfsr32El2, accessRegister_of_permitsAccess h]

/-- MSR where access is permitted (R72). -/
theorem exec_msr_of_permitsAccess {t : RegNum} {s : State} (h : s.permitsAccess) :
    exec (.msrIfsr32El2 t) s =
      .next (s.setIfsr32Raw (writeMerge s.cfg s.eae s.ifsr32Raw (readX s t))).advancePc := by
  rw [exec, execMsrIfsr32El2, accessRegister_of_permitsAccess h]

/-- What the access check looks at: its answer is the same in states that agree there. -/
theorem permitsAccess_congr {s u : State} (hc : u.cfg = s.cfg) (hl : u.el = s.el) :
    u.permitsAccess ↔ s.permitsAccess := by
  rw [State.permitsAccess, State.permitsAccess, hc, hl]

/-- Everything `exec` can do where it answers a next state. -/
theorem exec_next_cases {i : Instr} {s s' : State} (h : exec i s = .next s') :
    s.permitsAccess ∧
      ((∃ t, i = .mrsIfsr32El2 t ∧
          s' = (writeX t (readView s.cfg s.eae s.ifsr32Raw) s).advancePc) ∨
        (∃ t, i = .msrIfsr32El2 t ∧
          s' = (s.setIfsr32Raw (writeMerge s.cfg s.eae s.ifsr32Raw (readX s t))).advancePc)) := by
  cases i with
  | mrsIfsr32El2 t =>
    rw [exec, execMrsIfsr32El2] at h
    obtain ⟨hp, e⟩ := accessRegister_next h
    exact ⟨hp, .inl ⟨t, rfl, e⟩⟩
  | msrIfsr32El2 t =>
    rw [exec, execMsrIfsr32El2] at h
    obtain ⟨hp, e⟩ := accessRegister_next h
    exact ⟨hp, .inr ⟨t, rfl, e⟩⟩

/-- The advance of pc keeps its alignment, also where it wraps (R39, R51). -/
theorem wordAligned_add_four (a : Word64) : wordAligned (a + 4) = wordAligned a := by
  have h : (a + 4).toNat % 4 = a.toNat % 4 := by bv_omega
  simp only [wordAligned, h]

/-- Everything a fetch that finds an instruction says. -/
theorem fetch_ok {s : State} {i : Instr} (h : fetch s = .ok i) :
    wordAligned s.pc = true ∧ ∃ w, s.mem.readWord s.pc = some w ∧ decodeWord w = .instr i := by
  unfold fetch at h
  split at h
  · rename_i ha
    refine ⟨ha, ?_⟩
    split at h
    · cases h
    · rename_i w hw
      split at h
      · rename_i j hj
        cases h
        exact ⟨w, hw, hj⟩
      · cases h
  · cases h

/-- Everything a step that answers a next state does. -/
theorem step_next_cases {s s' : State} (h : step s = .next s') :
    ∃ i u, fetch s = .ok i ∧ exec i s = .next u ∧ s' = u.takeInputs := by
  unfold step at h
  split at h
  · cases h
  · rename_i i hi
    split at h
    · rename_i u hu
      exact ⟨i, u, hi, hu, (Host.Outcome.next.inj h).symm⟩
    · cases h
    · cases h

/-- The fetch looks at the program counter and the program alone. -/
theorem fetch_congr {a b : State} (hp : a.pc = b.pc) (hm : a.mem = b.mem) : fetch a = fetch b := by
  simp only [fetch, hp, hm]

/-- Taking the environment's inputs keeps two states alike outside the registers. -/
theorem agreeOutsideRegisters_takeInputs {a b : State} (h : agreeOutsideRegisters a b) :
    agreeOutsideRegisters a.takeInputs b.takeInputs := by
  obtain ⟨hpc, hel, hnv, heae, hup, hdr, hmem, hcfg⟩ := h
  simp only [agreeOutsideRegisters, State.takeInputs, hup]
  cases b.upcoming with
  | nil => exact ⟨hpc, hel, hnv, heae, hup, hdr, hmem, hcfg⟩
  | cons i rest => exact ⟨hpc, hel, rfl, rfl, rfl, hdr, hmem, hcfg⟩

/-- The word stored where the next step fetches is the word that step fetches. -/
theorem readWord_withFetchWord (s : State) (nbits w : Nat) :
    (s.withFetchWord nbits w).mem.readWord (s.withFetchWord nbits w).pc
      = some (tableWord nbits w) :=
  Memory.readWord_placeWord _ _ _

end Sys2Proof.Machine
end

