-- ==== Sys2Proof/Tests/Slice0.lean ====
section
/-! SUPPORT. The model's own tests: words written out from 30_encoding.md, the checks of
WellFormed.lean each refusing an ill-formed term, vectors of 95_test_vectors.md (E, O, R, W, I, H, T,
their numbers in the comments), and a witness for the hypotheses of each statement. -/

namespace Sys2Proof.Tests

open Sys2Proof.Machine

/-! ## Small states -/

/-- 95_test_vectors.md's convention: everything implemented, FEAT_RAS absent, ExT a field. -/
def cfg (rs : Word64) : Config where
  featAA32EL1 := true
  featRAS := false
  haveEL2 := true
  haveEL3 := true
  el1AArch32Capable := true
  extClassification := true
  res0Storage := rs
  base := 0

/-- A state with the given configuration, level, EAE and raw value; x[1] holds all ones. -/
def st (c : Config) (l : ExceptionLevel) (e : Bool) (raw : Word64) : State where
  ifsr32Raw := raw
  x := (Vector.replicate 31 0).set 1 0xFFFFFFFFFFFFFFFF
  pc := 0x1000
  el := l
  hcrNVx := 0
  eae := e
  upcoming := [⟨!e, 0b001⟩]
  draws := 0
  mem := []
  cfg := c

/-- The next state of an outcome, where there is one. -/
def nextOf (o : Host.Outcome State Fault Refusal) : Option State :=
  match o with
  | .next s => some s
  | .fault _ => none
  | .refused _ => none

/-- The fault of an outcome, where there is one. -/
def faultOf (o : Host.Outcome State Fault Refusal) : Option Fault :=
  match o with
  | .next _ => none
  | .fault f => some f
  | .refused _ => none

/-- The refusal of an outcome, where there is one. -/
def refusalOf (o : Host.Outcome State Fault Refusal) : Option Refusal :=
  match o with
  | .next _ => none
  | .fault _ => none
  | .refused r => some r

/-! ## Decoding (30_encoding.md) -/

/-- R62 bit by bit, t = 9: fixed, L = 1, 1, o0, op1, CRn, CRm, op2, Rt. -/
theorem test_decode_mrs_bits :
    decodeWord 0b11010101001111000101000000101001 = .instr (.mrsIfsr32El2 9) := by decide

/-- R63 bit by bit, t = 31. -/
theorem test_decode_msr_bits :
    decodeWord 0b11010101000111000101000000111111 = .instr (.msrIfsr32El2 31) := by decide

/-- The bytes of MRS X30, IFSR32_EL2 and MSR IFSR32_EL2, X1 (section 6). -/
theorem test_decode_bytes :
    decodeBytes [0x3E, 0x50, 0x3C, 0xD5] = .instr (.mrsIfsr32El2 30) [] ∧
    decodeBytes [0x21, 0x50, 0x1C, 0xD5, 0x07] = .instr (.msrIfsr32El2 1) [0x07] := by decide

/-- Vectors E5, E7, E9, E10, E12 to E16: one field of the word off at a time. -/
theorem test_decode_neighbours_out_of_scope :
    [0xD53C5000#32, 0xD5385020#32, 0xD53C5120#32, 0xD53C6020#32, 0xD5345020#32, 0xD52C5020#32,
      0xD50C5020#32, 0x553C5020#32, 0xD57C5020#32].all
      (fun w => decodeWord w == .notInScope w && !wordInScope w) = true := by decide

/-- Fewer than four bytes are no word. -/
theorem test_decode_truncated : decodeBytes [0x20, 0x50, 0x3C] = .truncated 3 := by decide

/-- The table's numbering of bits. -/
theorem test_decode_table_word :
    decodeTableWord 32 0xD53C5020 = some (.mrsIfsr32El2 0) ∧
    decodeTableWord 32 0xD51C503E = some (.msrIfsr32El2 30) ∧
    decodeTableWord 32 0xD503201F = none := by decide

/-- R67, R68: the assembler's spelling, and the generic register name. -/
theorem test_assembly :
    assembly (.mrsIfsr32El2 9) = "MRS X9, IFSR32_EL2" ∧
    assembly (.msrIfsr32El2 31) = "MSR IFSR32_EL2, XZR" ∧
    genericName ifsr32El2Name = "S3_4_C5_C0_1" := by decide

/-! ## WellFormed: each check refuses an ill-formed term -/

/-- Vector E19: a word out of scope. -/
theorem test_refuses_word_out_of_scope : wordInScope 0xD503201F = false := by decide

/-- A program not at a multiple of 4, and one with a word out of scope. -/
theorem test_refuses_program :
    programWellFormed 2 [0xD53C5020] = false ∧
    programWellFormed 4 [0xD53C5020, 0xD503201F] = false ∧
    programWellFormed 4 [0xD53C5020, 0xD51C503F] = true := by decide

/-- EL2 without HAVE_EL2 and EL3 without HAVE_EL3 (R92). -/
theorem test_refuses_absent_level :
    ({ cfg 0 with haveEL2 := false } : Config).implementsLevel .el2 = false ∧
    ({ cfg 0 with haveEL3 := false } : Config).implementsLevel .el3 = false := by decide

/-- NVx bit 0 without EL2 (D7). -/
theorem test_refuses_nvx_without_el2 :
    ({ cfg 0 with haveEL2 := false } : Config).nvxAllowed 0b001 = false := by decide

/-- A BASE that is no multiple of 4 (R53). -/
theorem test_refuses_base : ({ cfg 0 with base := 6 } : Config).baseAligned = false := by decide

/-- A memory out of order, with a repeat, and past 64 bits. -/
theorem test_refuses_memory :
    Memory.wf [(4, 0), (3, 0)] = false ∧ Memory.wf [(4, 0), (4, 1)] = false ∧
    Memory.wf [(2 ^ 64, 0)] = false ∧ Memory.wf [(3, 0), (4, 0)] = true := by decide

/-- A state whose pc is no multiple of 4. -/
theorem test_refuses_state :
    ({ st (cfg 0) .el2 false 0 with pc := 0x1002 } : State).wf = false := by decide

/-! ## The instructions -/

/-- Vector R3: every RES0 bit hardwired, EAE 0: only the fields of the Short layout are read. -/
theorem test_mrs_masks_res0 :
    (nextOf (exec (.mrsIfsr32El2 5) (st (cfg 0) .el2 false 0xFFFFFFFFFFFFFFFF))).map
      (fun u => (readX u 5, u.pc, u.ifsr32Raw)) =
      some (0x000000000001160F, 0x1004, 0xFFFFFFFFFFFFFFFF) := by decide

/-- Vectors R11 and R13: bit 10 is RES0 under EAE 1; XZR discards the value. -/
theorem test_mrs_long_layout_and_xzr :
    (nextOf (exec (.mrsIfsr32El2 7) (st (cfg 0) .el3 true 0x40D))).map (readX · 7) = some 0x00D ∧
    (nextOf (exec (.mrsIfsr32El2 31) (st (cfg 0) .el3 true 0x40D))).map (·.x) =
      some (st (cfg 0) .el3 true 0x40D).x := by decide

/-- Vector W10: bits [8:6] storage, bits [5:4] STATUS; a hardwired bit keeps its raw value, here the
bit 63 that was set. -/
theorem test_msr_merges :
    (nextOf (exec (.msrIfsr32El2 1) (st (cfg 0x1F0) .el2 true 0x8000000000000000))).map
      (fun u => (u.ifsr32Raw, u.pc)) = some (0x80000000000113FF, 0x1004) := by decide

/-- Vector W12: MSR IFSR32_EL2, XZR clears the register. -/
theorem test_msr_xzr_clears :
    (nextOf (exec (.msrIfsr32El2 31) (st (cfg 0) .el3 false 0x1160F))).map (·.ifsr32Raw)
      = some 0 := by decide

/-- Vectors O9, O10, O7, O3: the trap at EL1 by bit 0 alone, EL0 never traps, the feature first. -/
theorem test_outcomes :
    faultOf (exec (.mrsIfsr32El2 0) { st (cfg 0) .el1 false 0 with hcrNVx := 0b001 })
      = some (.systemAccessTrap .el2 0x18) ∧
    faultOf (exec (.msrIfsr32El2 0) { st (cfg 0) .el1 false 0 with hcrNVx := 0b010 })
      = some .undefined ∧
    faultOf (exec (.msrIfsr32El2 0) { st (cfg 0) .el0 false 0 with hcrNVx := 0b001 })
      = some .undefined ∧
    faultOf (exec (.mrsIfsr32El2 0)
      { st { cfg 0 with featAA32EL1 := false } .el1 false 0 with hcrNVx := 0b001 })
      = some .undefined := by decide

/-- The first instruction after reset runs, whichever of the two it is. -/
theorem test_first_step_after_reset :
    (nextOf (step (State.reset.withFetchWord 32 0xD53C5020))).isSome = true ∧
    (nextOf (step (State.reset.withFetchWord 32 0xD51C5020))).isSome = true := by decide

/-- After a step the environment's next inputs are in force (program P5: EAE changes). -/
theorem test_inputs_after_step :
    (nextOf (step ((st (cfg 0) .el2 false 0).withFetchWord 32 0xD51C5021))).map
      (fun u => (u.eae, u.hcrNVx, u.upcoming)) = some (true, 0b001, []) := by decide

/-- R102: the second word of a loaded program stands 4 bytes on, and the end 8 bytes on. -/
theorem test_load_program :
    (loadProgram [0xD51C5021, 0xD53C5022] (st (cfg 0) .el2 false 0)).mem.readWord 4
      = some 0xD53C5022 ∧
    atEndOfRun 2 { st (cfg 0) .el2 false 0 with pc := 8 } = true := by decide

/-! ## Fault records -/

/-- Vectors I1, I6, I9, I11, I14. -/
theorem test_interp :
    interp false true 0x205 = ⟨.short, .translation .one, false, false, true⟩ ∧
    interp true true 0x400 = ⟨.long, .addressSizeTableBase, false, false, false⟩ ∧
    interp true true 0x11210 = ⟨.long, .externalNotOnWalk, true, true, true⟩ ∧
    (interp false true 0x409).kind = .reserved ∧
    (interp false false 0x000).kind = .reserved := by decide

/-- Vectors H2, H3, H5, H8, H9, H13, H14, H18. -/
theorem test_hw_recorded :
    hwRecorded (cfg 0) false 0x205 = false ∧ hwRecorded (cfg 0) true 0x205 = true ∧
    hwRecorded (cfg 0) false 0x10008 = true ∧ hwRecorded (cfg 0) false 0x1000D = false ∧
    hwRecorded (cfg 0) false 0x0100D = false ∧
    hwRecorded { cfg 0 with featRAS := true } false 0x409 = false ∧
    hwRecorded (cfg 0) false 0x1409 = true ∧
    hwRecorded (cfg 0) false 0x0000000100000005 = false := by decide

/-- The counts the rules give: 15 and 3 FS rows, 20 and 4 STATUS rows, 14 and 40 reserved codes. -/
theorem test_code_counts :
    (fsTable.length, fsTableNoRas.length, fsReserved.length) = (15, 3, 14) ∧
    (statusTable.length, statusTableNoRas.length, statusReserved.length) = (20, 4, 40) := by decide

/-- R33: ExT means something for an External abort that is classified; the parity or ECC kinds are
left open (N23). -/
theorem test_ext_meaningful :
    extMeaningful (cfg 0) (.externalOnWalk .two) = some true ∧
    extMeaningful (cfg 0) .debug = some false ∧
    extMeaningful (cfg 0) .parityNotOnWalk = none ∧
    extMeaningful { cfg 0 with extClassification := false } .externalNotOnWalk = some false := by
  decide

/-- Two quoted meanings that differ between the tables (C3). -/
theorem test_meaning_text :
    meaningText .short (.externalOnWalk .one) =
      some "Synchronous External abort, on translation table walk, level 1." ∧
    meaningText .long (.externalOnWalk .one) =
      some "Synchronous External abort on translation table walk, level 1." := by decide

/-- Vectors T3 and T6. -/
theorem test_trap_syndrome :
    trapIssOf (.mrsIfsr32El2 9) = 0x331521 ∧ trapEsr (.mrsIfsr32El2 9) = 0x62331521 ∧
    trapIssOf (.msrIfsr32El2 30) = 0x3317C0 ∧ trapEsr (.msrIfsr32El2 30) = 0x623317C0 := by decide

/-! ## Witnesses: for each statement with hypotheses, an input that meets them all -/

/-- MRS X2, IFSR32_EL2 placed at pc, at EL2. -/
def mrsPlaced : State := (st (cfg 0) .el2 false 0x205).withFetchWord 32 0xD53C5022

/-- MSR IFSR32_EL2, X1 placed at pc, at EL3. -/
def msrPlaced : State := (st (cfg 0) .el3 false 0x205).withFetchWord 32 0xD51C5021

/-- DecoderAcceptsTheTwoRows: a word for each clause, and a state that fetches the third. -/
theorem witness_decoder_accepts_the_two_rows :
    0xD53C503F#32 &&& 0xFFFFFFE0 = 0xD53C5020 ∧ 0xD51C5020#32 &&& 0xFFFFFFE0 = 0xD51C5020 ∧
    0xD503201F#32 &&& 0xFFFFFFE0 ≠ 0xD53C5020 ∧ 0xD503201F#32 &&& 0xFFFFFFE0 ≠ 0xD51C5020 ∧
    (mrsPlaced.withFetchWord 32 0xD503201F).pc.toNat % 4 = 0 ∧
    (mrsPlaced.withFetchWord 32 0xD503201F).mem.readWord 0x1000 = some 0xD503201F := by decide

/-- BothInstructionsNameTheRegister: a word that decodes. -/
theorem witness_both_instructions_name_the_register :
    decodeWord 0xD51C502A = .instr (.msrIfsr32El2 10) := by decide

/-- StepRunsDecodedInstruction: the four bytes at an aligned pc decode. -/
theorem witness_step_runs_decoded_instruction :
    mrsPlaced.pc.toNat % 4 = 0 ∧
    mrsPlaced.mem.readByte mrsPlaced.pc.toNat = some 0x22 ∧
    mrsPlaced.mem.readByte (mrsPlaced.pc + 1).toNat = some 0x50 ∧
    mrsPlaced.mem.readByte (mrsPlaced.pc + 2).toNat = some 0x3C ∧
    mrsPlaced.mem.readByte (mrsPlaced.pc + 3).toNat = some 0xD5 ∧
    decodeBytes [0x22, 0x50, 0x3C, 0xD5] = .instr (.mrsIfsr32El2 2) [] := by decide

/-- StepRefusesWhereNoProgramStands: a misaligned pc; an aligned one with its last byte missing. -/
theorem witness_step_refuses_where_no_program_stands :
    ({ mrsPlaced with pc := 0x1003 } : State).pc.toNat % 4 ≠ 0 ∧
    ({ mrsPlaced with mem := mrsPlaced.mem.take 3 } : State).pc.toNat % 4 = 0 ∧ 3 < 4 ∧
    ({ mrsPlaced with mem := mrsPlaced.mem.take 3 } : State).mem.readByte (0x1000 + 3) = none := by
  decide

/-- PlacedInstructionRunsNext: a table word that decodes. -/
theorem witness_placed_instruction_runs_next :
    decodeTableWord 32 0xD53C503F = some (.mrsIfsr32El2 31) := by decide

/-- MrsReadsRegister, MsrWritesRegister, FirstMatchingArmDecides, El1ArmDependsOnBitZeroOnly: a state
for each arm. -/
theorem witness_each_arm :
    ({ cfg 0 with featAA32EL1 := false } : Config).featAA32EL1 = false ∧
    (cfg 0).featAA32EL1 = true ∧ (st (cfg 0) .el0 false 0).el = .el0 ∧
    (st (cfg 0) .el1 false 0).el = .el1 ∧ (cfg 0).haveEL2 = true ∧
    (effectiveNVx { st (cfg 0) .el1 false 0 with hcrNVx := 0b111 }).getLsbD 0 = true ∧
    (effectiveNVx { st (cfg 0) .el1 false 0 with hcrNVx := 0b110 }).getLsbD 0 = false ∧
    ({ cfg 0 with haveEL2 := false } : Config).haveEL2 = false ∧
    (st (cfg 0) .el2 false 0).el = .el2 ∧ (st (cfg 0) .el3 false 0).el = .el3 := by decide

/-- The statements whose hypothesis is permitsAccess (RepeatedReadsAgree,
ReadAfterWriteReturnsWritten, WriteReadRoundTrip, SaveRestoreIsExact, MsrFromZeroRegisterClears,
NoFaultAtEl2OrEl3, MsrWritesAArch32Ifsr, FirstReadAfterReset): both levels. -/
theorem witness_permits_access :
    (st (cfg 0) .el2 false 0).permitsAccess ∧ (st (cfg 0) .el3 true 0).permitsAccess :=
  ⟨⟨rfl, .inl rfl⟩, rfl, .inr rfl⟩

/-- OutcomeKindDependsOnTestedStateOnly: two states that differ in EAE, the raw value and NVx[2:1]
and agree on what is tested, with bit 0 of NVx() set. -/
theorem witness_outcome_kind :
    (effectiveNVx { st (cfg 0) .el1 false 0 with hcrNVx := 0b001 }).getLsbD 0 =
      (effectiveNVx { st (cfg 9) .el1 true 7 with hcrNVx := 0b111 }).getLsbD 0 ∧
    (st (cfg 0) .el1 false 0).el = (st (cfg 9) .el1 true 7).el ∧
    (cfg 0).featAA32EL1 = (cfg 9).featAA32EL1 := by decide

/-- MrsFrame and MsrFrame: an instruction that completes, on a general register and on XZR. -/
theorem witness_frames :
    (∃ u, exec (.mrsIfsr32El2 30) (st (cfg 0) .el2 false 5) = .next u) ∧
    (∃ u, exec (.mrsIfsr32El2 31) (st (cfg 0) .el3 false 5) = .next u) ∧
    (∃ u, exec (.msrIfsr32El2 30) (st (cfg 0) .el2 false 5) = .next u) ∧
    ∃ u, exec (.msrIfsr32El2 31) (st (cfg 0) .el3 false 5) = .next u :=
  ⟨⟨_, rfl⟩, ⟨_, rfl⟩, ⟨_, rfl⟩, _, rfl⟩

/-- AccessCompletesAtImplementedLevelsOnly: a well-formed state at EL3, and one with neither EL2 nor
EL3. -/
theorem witness_access_completes_at_implemented_levels :
    (st (cfg 0) .el3 false 0).wf = true ∧
    (st { cfg 0 with haveEL2 := false, haveEL3 := false } .el1 false 0).wf = true := by decide

/-- Res0BitsReadZeroOrStore: under EAE 0 bit 3 is no RES0 bit, bit 63 one that is storage, bit 4 one
that is not; bit 3 is a RES0 bit where the whole register is. -/
theorem witness_res0_bits :
    (res0Mask (cfg 0x8000000000000000) false).getLsbD 3 = false ∧
    (res0Mask (cfg 0x8000000000000000) false).getLsbD 63 = true ∧
    (cfg 0x8000000000000000).res0Storage.getLsbD 63 = true ∧
    (res0Mask (cfg 0x8000000000000000) false).getLsbD 4 = true ∧
    (cfg 0x8000000000000000).res0Storage.getLsbD 4 = false ∧
    (res0Mask { cfg 0 with haveEL2 := false, haveEL3 := false } false).getLsbD 3 = true := by decide

/-- EaeChangesThreeBitsOfARead: each of the three bits does change; its last clause has the hypothesis
of witness_permits_access and three general registers. -/
theorem witness_eae_changes_three_bits :
    (readView (cfg 0) true 0x430).getLsbD 10 ≠ (readView (cfg 0) false 0x430).getLsbD 10 ∧
    (readView (cfg 0) true 0x430).getLsbD 5 ≠ (readView (cfg 0) false 0x430).getLsbD 5 ∧
    (readView (cfg 0) true 0x430).getLsbD 4 ≠ (readView (cfg 0) false 0x430).getLsbD 4 ∧
    (st (cfg 0) .el2 false 0x430).cfg.featAA32EL1 = true ∧
    (st (cfg 0) .el2 false 0x430).el = .el2 ∧ (0 : RegNum) ≠ 31 ∧ (30 : RegNum) ≠ 31 := by decide

/-- FnvExtLpaeArePlainStorage: both ways a register is not RES0 as a whole, with ExT a field, in
states that permit access. -/
theorem witness_fnv_ext_lpae :
    ((st (cfg 0) .el2 false 0).permitsAccess ∧ (st (cfg 0) .el2 false 0).cfg.haveEL2 = true ∧
      (st (cfg 0) .el2 false 0).cfg.extClassification = true) ∧
    ((st { cfg 0 with haveEL2 := false } .el3 false 0).permitsAccess ∧
      (cfg 0).haveEL3 = true ∧ (cfg 0).el1AArch32Capable = true) ∧ (1 : RegNum) ≠ 31 :=
  ⟨⟨⟨rfl, .inl rfl⟩, rfl, rfl⟩, ⟨⟨rfl, .inr rfl⟩, rfl, rfl⟩, by decide⟩

/-- RegisterNotRes0WithoutEl2: the configuration of R3 at EL3, and the fields at the ends of the Long
layout. -/
theorem witness_register_not_res0 :
    let s := st { cfg 0 with haveEL2 := false } .el3 true 0
    s.cfg.featAA32EL1 = true ∧ s.el = .el3 ∧ s.cfg.haveEL2 = false ∧ s.cfg.haveEL3 = true ∧
    s.cfg.el1AArch32Capable = true ∧
    fieldAt (layoutRows s.eae) 0 ≠ some .reserved ∧ fieldAt (layoutRows s.eae) 16 ≠ some .reserved ∧
    fieldAt (layoutRows s.eae) 12 = some .ext ∧ s.cfg.extClassification = true := by decide

/-- WholeRegisterRes0WithoutEl2AndCondition: both ways the condition of R3 can fail, with a bit of
each kind of storage. -/
theorem witness_whole_register_res0 :
    let c := { cfg 0x1 with haveEL2 := false, haveEL3 := false }
    let d := { cfg 0x1 with haveEL2 := false, el1AArch32Capable := false }
    (c.haveEL2 = false ∧ c.haveEL3 = false) ∧ (d.haveEL2 = false ∧ d.el1AArch32Capable = false) ∧
    c.res0Storage.getLsbD 0 = true ∧ c.res0Storage.getLsbD 63 = false := by decide

/-- R102, log 33: a load keeps the bytes outside its words, so an earlier program's second word still
stands where a one-word program ends, and with nothing placed before no word stands there. -/
theorem test_load_keeps_other_memory :
    (loadProgram [0xD51C5021]
      (loadProgram [0xD53C5020, 0xD53C5022] (st (cfg 0) .el2 false 0))).mem.readWord 4
      = some 0xD53C5022 ∧
    (loadProgram [0xD51C5021] (st (cfg 0) .el2 false 0)).mem.readWord 4 = none := by decide

/-- InterpNamesListedCodes and CodesHaveImagesAndMeanings: a value with the first or the last code of
each of the four tables, other bits set. -/
theorem witness_interp_names_listed_codes :
    fsOf 0xFFFFFFFFFFFFFBF1 = 0b00001 ∧ fsOf 0x604 = 0b10100 ∧ fsOf 0x609 = 0b11001 ∧
    statusOf 0x11240 = 0b000000 ∧ statusOf 0x230 = 0b110000 ∧ statusOf 0x21F = 0b011111 := by decide

/-- The codes of neighbouring rows name their own kinds (R23, R30). -/
theorem test_neighbouring_codes :
    (interp false true 0x003).kind = .accessFlag .one ∧
    (interp false true 0x005).kind = .translation .one ∧
    (interp true true 0x00B).kind = .accessFlag .three ∧
    (interp true true 0x00D).kind = .permission .one := by decide

/-- AArch32SideReplacesLowHalf: a state of each pair of levels, and a value hardware could have
recorded at EL1. -/
theorem witness_aarch32_side :
    (st (cfg 0) .el2 false 0).el = .el2 ∧ (st (cfg 0) .el1 false 0).el = .el1 ∧
    (envPrefetchAbort 0x005 (st (cfg 0) .el1 false 0)).isSome = true := by decide

/-- StepKeepsWellFormed, StepKeepsLevelConfigurationAndProgram, PcAdvancesByFour: a well-formed state
that steps. -/
theorem witness_step_keeps_well_formed :
    mrsPlaced.wf = true ∧ ∃ s', step mrsPlaced = .next s' := ⟨by decide, _, rfl⟩

/-- OnlyMsrChangesRegister: a step that changes the register. -/
theorem witness_only_msr_changes_register :
    ∃ s', step msrPlaced = .next s' ∧ s'.ifsr32Raw ≠ msrPlaced.ifsr32Raw :=
  ⟨_, rfl, by decide⟩

/-- OnlyMrsChangesGeneralRegisters: a step that changes x[2]. -/
theorem witness_only_mrs_changes_general_registers :
    ∃ s', step mrsPlaced = .next s' ∧ readX s' 2 ≠ readX mrsPlaced 2 :=
  ⟨_, rfl, by decide⟩

/-- RegisterValueHasNoEffect: a fetch of an MSR, and one that is no MRS of X5. -/
theorem witness_register_value_has_no_effect :
    (match fetch msrPlaced with
      | .ok i => i == .msrIfsr32El2 1 && i != .mrsIfsr32El2 5
      | .error _ => false) = true := by decide

/-- StepKeepsAgreementOutsideRegisters: two states that step and differ in the register and in every
general register. -/
theorem witness_agreement_outside_registers :
    agreeOutsideRegisters mrsPlaced
      { mrsPlaced with ifsr32Raw := 0x40D, x := Vector.replicate 31 7 } ∧
    (nextOf (step mrsPlaced)).isSome = true :=
  ⟨⟨rfl, rfl, rfl, rfl, rfl, rfl, rfl, rfl⟩, by decide⟩

/-- The refusals of a step, by name: a word out of scope, a misaligned pc, no word. -/
theorem test_refusals :
    refusalOf (step (mrsPlaced.withFetchWord 32 0xD503201F)) = some (.notInScope 0xD503201F) ∧
    refusalOf (step { mrsPlaced with pc := 0x1001 }) = some (.misalignedPc 0x1001) ∧
    refusalOf (step { mrsPlaced with pc := 0x2000 }) = some (.noProgramWord 0x2000) := by decide

end Sys2Proof.Tests
end

