-- ==== Sys2Proof/Proofs/RegisterFields.lean ====
section
/-! PROOFS. A field of the layout in force is never hardwired where the register is not RES0 as a
whole, so an MRS after an MSR reads it back as written (R3, R35). -/

namespace Sys2Proof.Machine

/-- ExT stands at bit 12 of both layouts (R14, R15). -/
theorem fieldAt_ext (e : Bool) : fieldAt (layoutRows e) 12 = some .ext := by
  cases e <;> rfl

/-- Without EL2, EL3 and an EL1 capable of AArch32 keep the register from being RES0 (R3). -/
theorem registerIsRes0_eq_false {c : Config} (h3 : c.haveEL3 = true)
    (h1 : c.el1AArch32Capable = true) : registerIsRes0 c = false :=
  Bool.eq_false_iff.mpr fun h => ((registerIsRes0_iff c).mp h).2 ⟨h3, h1⟩

/-- No bit of a field is RES0: its row is not reserved, and ExT counts where it is classified. -/
theorem res0Mask_field_bit {c : Config} {e : Bool} {j : Nat} (hc : registerIsRes0 c = false)
    (hj : j < 64) (hf : fieldAt (layoutRows e) j ≠ some .reserved)
    (hx : fieldAt (layoutRows e) j = some .ext → c.extClassification = true) :
    (res0Mask c e).getLsbD j = false := by
  have hext : j = 12 → c.extClassification = true := fun h => hx (h ▸ fieldAt_ext e)
  rw [res0Mask_bit c e hj]
  simpa [hc, hf] using hext

/-- A read shows the raw bit at every bit that is not RES0 (R35). -/
theorem readView_bit_of_not_res0 {c : Config} {e : Bool} {j : Nat} (hj : j < 64)
    (h : (res0Mask c e).getLsbD j = false) (raw : Word64) :
    (readView c e raw).getLsbD j = raw.getLsbD j := by
  simp [readView_bit, hardwired_bit c e hj, h]

/-- MRS completes where access is permitted, and its destination then holds the read view (R70). -/
theorem exec_mrs_reads_view (r : RegNum) {s : State} (h : s.permitsAccess) :
    ∃ v, exec (.mrsIfsr32El2 r) s = .next v ∧
      (r ≠ 31 → readX v r = readView s.cfg s.eae s.ifsr32Raw) :=
  ⟨_, exec_mrs_of_permitsAccess h, fun hr => by rw [readX_advancePc, readX_writeX_self hr]⟩

/-- An instruction that completes keeps the configuration and the level, and so leaves access
permitted. -/
theorem permitsAccess_of_exec_next {i : Instr} {s u : State} (h : exec i s = .next u) :
    u.permitsAccess := by
  obtain ⟨hp, ⟨t, -, rfl⟩ | ⟨t, -, rfl⟩⟩ := exec_next_cases h
  · exact (permitsAccess_congr (by simp) (by simp)).mpr hp
  · exact (permitsAccess_congr (by simp) (by simp)).mpr hp

/-- MSR and then MRS complete where access is permitted, and the second reads the view of the value
the first wrote (R70, R72). -/
theorem exec_msr_mrs_reads_view (t r : RegNum) {s : State} (h : s.permitsAccess) :
    ∃ u v, exec (.msrIfsr32El2 t) s = .next u ∧ exec (.mrsIfsr32El2 r) u = .next v ∧
      (r ≠ 31 → readX v r = readView s.cfg s.eae (readX s t)) := by
  have hu := exec_msr_of_permitsAccess (t := t) h
  obtain ⟨v, hv, hread⟩ := exec_mrs_reads_view r (permitsAccess_of_exec_next hu)
  exact ⟨_, v, hu, hv, fun hr => by simpa [readView_writeMerge] using hread hr⟩

/-- Settles O28: access is permitted at EL3, and a field's bit is not RES0, so the read view after
the write is the written bit. -/
theorem registerNotRes0WithoutEl2 : Obligations.RegisterNotRes0WithoutEl2 := by
  unfold Obligations.RegisterNotRes0WithoutEl2
  intro t r s hfeat hel _ h3 h1
  have hc : registerIsRes0 s.cfg = false := registerIsRes0_eq_false h3 h1
  obtain ⟨u, v, hu, hv, hread⟩ := exec_msr_mrs_reads_view t r (s := s) ⟨hfeat, .inr hel⟩
  refine ⟨hc, u, v, hu, hv, fun j hr hj hfield hext => ?_⟩
  rw [hread hr]
  exact readView_bit_of_not_res0 hj (res0Mask_field_bit hc hj hfield hext) _

end Sys2Proof.Machine
end

/-! PROOFS. Where the FS and STATUS codes stand in a register value, and what each listed code is
read as (R22 to R24, R29 to R31). -/

namespace Sys2Proof.Machine

/-! ## The bits of a code (R22, R29) -/

/-- FS[4] is bit 10 of the value, FS[3:0] its bits [3:0] (R22). -/
theorem fsOf_bit (v : Word64) {j : Nat} (hj : j < 5) :
    (fsOf v).getLsbD j = if j = 4 then v.getLsbD 10 else v.getLsbD j := by
  rw [fsOf, BitVec.getLsbD_append]
  by_cases h : j = 4
  · simp [h]
  · have hlow : j < 4 := by omega
    simp [h, hlow]

/-- An FS image holds the code's bits at 10 and at [3:0], and nothing else (R22). -/
theorem fsImage_bit (c : BitVec 5) (j : Nat) :
    (fsImage c).getLsbD j =
      if j = 10 then c.getLsbD 4 else if j < 4 then c.getLsbD j else false := by
  by_cases h : j = 10
  · simp [fsImage, h]
  · by_cases hlow : j < 4
    · have h10 : j < 10 := by omega
      have h64 : j < 64 := by omega
      simp [fsImage, h, hlow, h10, h64]
    · have hoff : 10 ≤ j → j - 10 ≠ 0 := by omega
      simp +contextual [fsImage, h, hlow, hoff]

/-- An FS image is read back as its code. -/
theorem fsOf_fsImage (c : BitVec 5) : fsOf (fsImage c) = c := by
  refine BitVec.eq_of_getLsbD_eq fun j hj => ?_
  rw [fsOf_bit _ hj, fsImage_bit, fsImage_bit]
  by_cases h : j = 4
  · simp [h]
  · have hlow : j < 4 := by omega
    have h10 : j ≠ 10 := by omega
    simp [h, hlow, h10]

/-- STATUS is the value's bits [5:0] (R29). -/
theorem statusOf_bit (v : Word64) {j : Nat} (hj : j < 6) :
    (statusOf v).getLsbD j = v.getLsbD j := by
  simp [statusOf, hj]

/-- A STATUS image is the code zero-extended (R29). -/
theorem statusImage_bit (c : BitVec 6) (j : Nat) : (statusImage c).getLsbD j = c.getLsbD j := by
  have hlow : c.getLsbD j = true → j < 64 := fun h => (BitVec.lt_of_getLsbD h).trans (by decide)
  simpa [statusImage] using hlow

/-- A STATUS image is read back as its code. -/
theorem statusOf_statusImage (c : BitVec 6) : statusOf (statusImage c) = c := by
  refine BitVec.eq_of_getLsbD_eq fun j hj => ?_
  rw [statusOf_bit _ hj, statusImage_bit]

/-- Settles O31: each placement bit by bit, and each round trip from the two placements. -/
theorem statusCodePlacement : Obligations.StatusCodePlacement :=
  ⟨fun v _ hj => fsOf_bit v hj, fsImage_bit, fsOf_fsImage,
    fun v _ hj => statusOf_bit v hj, statusImage_bit, statusOf_statusImage⟩

/-! ## The rows of the tables (R23, R24, R30, R31)

A row is a code, its image and its quoted meaning. -/

/-- In the layout for EAE == 0 the kind read is the one FS names (R33). -/
theorem interp_short_kind (ras : Bool) (v : Word64) :
    (interp false ras v).kind = fsKind ras (fsOf v) := rfl

/-- In the layout for EAE == 1 the kind read is the one STATUS names (R33). -/
theorem interp_long_kind (ras : Bool) (v : Word64) :
    (interp true ras v).kind = statusKind ras (statusOf v) := rfl

/-- Rows whose codes have the image beside them and read as they say give every value with such a
code that reading. -/
theorem rows_read {n : Nat} {imageOf : BitVec n → Word64} (codeOf : Word64 → BitVec n)
    (reads : BitVec n → String → Prop) (v : Word64) {rows : List (BitVec n × Word64 × String)}
    (hrows : ∀ row ∈ rows, imageOf row.1 = row.2.1 ∧ reads row.1 row.2.2)
    (code : BitVec n) (image : Word64) (meaning : String) (hrow : (code, image, meaning) ∈ rows) :
    imageOf code = image ∧ (codeOf v = code → reads (codeOf v) meaning) := by
  obtain ⟨himage, hreads⟩ := hrows _ hrow
  exact ⟨himage, fun hcode => hcode ▸ hreads⟩

/-- Settles O48: a reading depends on the value through its code, so a check of the rows of each of
the four tables settles every value. -/
theorem codesHaveImagesAndMeanings : Obligations.CodesHaveImagesAndMeanings := by
  unfold Obligations.CodesHaveImagesAndMeanings
  intro v
  simp only [interp_short_kind, interp_long_kind]
  refine ⟨fun ras => rows_read fsOf
      (fun c meaning => meaningText .short (fsKind ras c) = some meaning) v ?_,
    rows_read fsOf (fun c meaning => meaningText .short (fsKind false c) = some meaning) v ?_,
    fun ras => rows_read statusOf
      (fun c meaning => meaningText .long (statusKind ras c) = some meaning) v ?_,
    rows_read statusOf (fun c meaning => meaningText .long (statusKind false c) = some meaning ∧
      statusKind true c = .reserved) v ?_⟩
  · cases ras <;> decide
  · decide
  · cases ras <;> decide
  · decide

end Sys2Proof.Machine

/-! PROOFS. Two runs of one step that differ in the register alone (R11). -/

namespace Sys2Proof.Machine

/-! ## Two outcomes that end alike -/

/-- Two outcomes are of one kind: next states related by `R`, or the same fault, or the same
refusal. -/
inductive OutcomesAlike (R : State → State → Prop) :
    Host.Outcome State Fault Refusal → Host.Outcome State Fault Refusal → Prop
  | next {a b : State} (h : R a b) : OutcomesAlike R (.next a) (.next b)
  | fault (f : Fault) : OutcomesAlike R (.fault f) (.fault f)
  | refused (r : Refusal) : OutcomesAlike R (.refused r) (.refused r)

/-- Two accesses that the check decides alike end alike where their effects do. -/
theorem accessRegister_alike {R : State → State → Prop} {f g : State → State} {a b : State}
    (hd : accessDecision a = accessDecision b) (hR : R (f a) (g b)) :
    OutcomesAlike R (accessRegister f a) (accessRegister g b) := by
  unfold accessRegister
  rw [← hd]
  cases accessDecision a with
  | undefined => exact .fault _
  | trapToEl2 => exact .fault _
  | permitted => exact .next hR

/-- Two steps that fetch the same end alike where the instruction fetched does, for a relation that
taking the environment's inputs keeps. -/
theorem step_alike {R : State → State → Prop} {a b : State} (hf : fetch a = fetch b)
    (hR : ∀ u w, R u w → R u.takeInputs w.takeInputs)
    (hexec : ∀ i, fetch a = .ok i → OutcomesAlike R (exec i a) (exec i b)) :
    OutcomesAlike R (step a) (step b) := by
  unfold step
  rw [← hf]
  cases h : fetch a with
  | error r => exact .refused r
  | ok i =>
    have hi := hexec i h
    dsimp only
    generalize exec i a = x, exec i b = y at hi ⊢
    cases hi with
    | next hu => exact .next (hR _ _ hu)
    | fault f => exact .fault f
    | refused r => exact .refused r

/-! ## Next states of two runs (R11) -/

/-- How far `a` and `b` agree after a step of `s` in two runs that began with different values of
the register: on all but the register and the general registers, on every general register that no
MRS wrote, and after an MSR on every bit of the register that is not hardwired. -/
def agreeAfterStepOf (s a b : State) : Prop :=
  agreeOutsideRegisters a b ∧
  (∀ r : RegNum, fetch s ≠ .ok (.mrsIfsr32El2 r) → readX a r = readX b r) ∧
  ∀ t : RegNum, fetch s = .ok (.msrIfsr32El2 t) →
    a.ifsr32Raw &&& ~~~hardwired s.cfg s.eae = b.ifsr32Raw &&& ~~~hardwired s.cfg s.eae

/-- Taking the environment's inputs writes no register and keeps the rest alike. -/
theorem agreeAfterStepOf_takeInputs {s a b : State} (h : agreeAfterStepOf s a b) :
    agreeAfterStepOf s a.takeInputs b.takeInputs := by
  obtain ⟨hout, hx, hraw⟩ := h
  exact ⟨agreeOutsideRegisters_takeInputs hout, by simpa using hx, by simpa using hraw⟩

/-- The effect of an MRS differs between the runs in its destination alone. -/
theorem mrs_agreeAfterStepOf {s : State} {t : RegNum} (h : fetch s = .ok (.mrsIfsr32El2 t))
    (v x y : Word64) :
    agreeAfterStepOf s (writeX t x s).advancePc (writeX t y (s.setIfsr32Raw v)).advancePc := by
  refine ⟨by simp [agreeOutsideRegisters], fun r hr => ?_, fun _ h' => by simp [h] at h'⟩
  have hne : r ≠ t := fun e => hr (e ▸ h)
  simp [readX_writeX_of_ne hne]

/-- The effect of an MSR differs between the runs in hardwired bits alone: elsewhere the register
takes the source, which is the same in both. -/
theorem msr_agreeAfterStepOf (s : State) (v x : Word64) :
    agreeAfterStepOf s (s.setIfsr32Raw (writeMerge s.cfg s.eae s.ifsr32Raw x)).advancePc
      ((s.setIfsr32Raw v).setIfsr32Raw (writeMerge s.cfg s.eae v x)).advancePc := by
  have hview := (readView_writeMerge s.cfg s.eae s.ifsr32Raw x).trans
    (readView_writeMerge s.cfg s.eae v x).symm
  exact ⟨by simp [agreeOutsideRegisters], fun _ _ => by simp, fun _ _ => hview⟩

/-- The instruction fetched ends alike in the two runs. -/
theorem exec_alike_setIfsr32Raw {s : State} {i : Instr} (h : fetch s = .ok i) (v : Word64) :
    OutcomesAlike (agreeAfterStepOf s) (exec i s) (exec i (s.setIfsr32Raw v)) := by
  have hd : accessDecision s = accessDecision (s.setIfsr32Raw v) := accessDecision_congr rfl rfl rfl
  cases i with
  | mrsIfsr32El2 t =>
    rw [exec, exec, execMrsIfsr32El2, execMrsIfsr32El2]
    exact accessRegister_alike hd (mrs_agreeAfterStepOf h v _ _)
  | msrIfsr32El2 t =>
    rw [exec, exec, execMsrIfsr32El2, execMsrIfsr32El2]
    exact accessRegister_alike hd (msr_agreeAfterStepOf s v _)

/-- Settles O43: the fetch and the access check do not look at the register, and each instruction
ends alike in the two runs. -/
theorem registerValueHasNoEffect : Obligations.RegisterValueHasNoEffect := by
  unfold Obligations.RegisterValueHasNoEffect
  intro s v
  have hf : fetch (s.setIfsr32Raw v) = fetch s := fetch_congr rfl rfl
  have hstep := step_alike (R := agreeAfterStepOf s) hf.symm
    (fun _ _ => agreeAfterStepOf_takeInputs) fun _ h => exec_alike_setIfsr32Raw h v
  refine ⟨hf, ?_⟩
  generalize step s = x, step (s.setIfsr32Raw v) = y at hstep ⊢
  cases hstep with
  | next h => exact h
  | fault => rfl
  | refused => rfl

end Sys2Proof.Machine

/-! PROOFS. The name a decoded word carries (R61, R66). -/

namespace Sys2Proof.Machine

/-- A word decodes to an instruction exactly where it is of the System register move form and names
IFSR32_EL2; L then gives the direction and Rt the operand (R66). -/
theorem decodeWord_eq_instr_iff {w : Word32} {i : Instr} :
    decodeWord w = .instr i ↔
      sysMoveForm w = true ∧ sysRegNameOf w = ifsr32El2Name ∧
        (if readBit w then .mrsIfsr32El2 (rtOf w) else .msrIfsr32El2 (rtOf w)) = i := by
  unfold decodeWord
  by_cases h : sysMoveForm w = true ∧ sysRegNameOf w = ifsr32El2Name
  · cases readBit w <;> simp [h]
  · have hrow : (sysMoveForm w && sysRegNameOf w == ifsr32El2Name) = false := by simpa using h
    simpa [hrow] using fun hform hname => absurd ⟨hform, hname⟩ h

/-- Settles O4: the decoder compares the word's name with IFSR32_EL2's, and the encoder writes that
name into the word of either instruction. -/
theorem bothInstructionsNameTheRegister : Obligations.BothInstructionsNameTheRegister := by
  unfold Obligations.BothInstructionsNameTheRegister
  refine ⟨fun w i h => ?_, fun t => ⟨?_, ?_⟩⟩
  · obtain ⟨-, hname, -⟩ := decodeWord_eq_instr_iff.mp h
    exact hname
  · obtain ⟨-, hname, -, -⟩ := Laws.EncodedFields.mrsIfsr32El2 t
    exact hname
  · obtain ⟨-, hname, -, -⟩ := Laws.EncodedFields.msrIfsr32El2 t
    exact hname

end Sys2Proof.Machine

/-! PROOFS. Every arm of the two instructions (R70, R72). -/

namespace Sys2Proof.Machine

/-! ## The arms that stop (R70 to R73) -/

/-- What an instruction does where its access is permitted (R70, R72). -/
def accessEffect : Instr → State → State
  | .mrsIfsr32El2 t, s => (writeX t (readView s.cfg s.eae s.ifsr32Raw) s).advancePc
  | .msrIfsr32El2 t, s =>
    (s.setIfsr32Raw (writeMerge s.cfg s.eae s.ifsr32Raw (readX s t))).advancePc

/-- Either instruction is its effect behind the one access check. -/
theorem exec_eq_accessRegister (i : Instr) (s : State) :
    exec i s = accessRegister (accessEffect i) s := by
  cases i with
  | mrsIfsr32El2 t => rfl
  | msrIfsr32El2 t => rfl

/-- The check rejects an access exactly without the feature, at EL0, and at EL1 with bit 0 of NVx()
clear. -/
theorem accessDecision_undefined_iff (s : State) :
    accessDecision s = .undefined ↔
      s.cfg.featAA32EL1 = false ∨ s.el = .el0 ∨
        (s.el = .el1 ∧ (effectiveNVx s).getLsbD 0 = false) := by
  unfold accessDecision
  cases s.cfg.featAA32EL1 <;> cases s.el <;> simp

/-- Either instruction is Undefined where the check rejects its access. -/
theorem exec_undefined_of {s : State} (i : Instr)
    (h : s.cfg.featAA32EL1 = false ∨ s.el = .el0 ∨
      (s.el = .el1 ∧ (effectiveNVx s).getLsbD 0 = false)) :
    exec i s = .fault .undefined := by
  rw [exec_eq_accessRegister, accessRegister, (accessDecision_undefined_iff s).mpr h, raiseUndefined]

/-- Either instruction traps to EL2 where the check says so. -/
theorem exec_trap_of {s : State} (i : Instr) (hfeat : s.cfg.featAA32EL1 = true) (hel : s.el = .el1)
    (hbit : (effectiveNVx s).getLsbD 0 = true) :
    exec i s = .fault (.systemAccessTrap .el2 0x18) := by
  rw [exec_eq_accessRegister, accessRegister,
    (accessDecision_trap_iff s).mpr ⟨hfeat, hel, hbit⟩, raiseSystemAccessTrap, sysAccessTrapCode]

/-! ## The words (R62, R63) -/

/-- The word of MRS is its match value with Rt in the low bits (R62). -/
theorem encodeWord_mrs (t : RegNum) :
    encodeWord (.mrsIfsr32El2 t) = 0xD53C5020 ||| t.zeroExtend 32 := by
  revert t; decide

/-- The word of MSR is its match value with Rt in the low bits (R63). -/
theorem encodeWord_msr (t : RegNum) :
    encodeWord (.msrIfsr32El2 t) = 0xD51C5020 ||| t.zeroExtend 32 := by
  revert t; decide

/-! ## The arm that completes -/

/-- A register write changes the general registers alone. -/
theorem writeX_eq_with_x (t : RegNum) (v : Word64) (s : State) :
    writeX t v s = { s with x := (writeX t v s).x } := by
  obtain ⟨-, h⟩ | ⟨_, h⟩ := writeX_cases t v s <;> rw [h]

/-- A bit of AArch32 IFSR is that bit of the raw value (R12). -/
theorem ifsrAArch32_bit (s : State) {j : Nat} (hj : j < 32) :
    s.ifsrAArch32.getLsbD j = s.ifsr32Raw.getLsbD j := by
  simp [State.ifsrAArch32, hj]

/-- Settles O8: the access check decides the arm, and the effect at EL2 and EL3 is a write of the
read view to x[t] and an advance of pc. -/
theorem mrsReadsRegister : Obligations.MrsReadsRegister := by
  unfold Obligations.MrsReadsRegister
  intro t s
  refine ⟨encodeWord_mrs t, fun hfeat => exec_undefined_of _ (.inl hfeat),
    fun _ hel => exec_undefined_of _ (.inr (.inl hel)), exec_trap_of _,
    fun _ hel hbit => exec_undefined_of _ (.inr (.inr ⟨hel, hbit⟩)), fun hfeat hel => ?_⟩
  refine ⟨_, exec_mrs_of_permitsAccess ⟨hfeat, hel⟩, fun ht => ?_, fun r hr => ?_, readX_xzr _,
    by simp, by simp, ?_⟩
  · rw [readX_advancePc, readX_writeX_self ht]
  · rw [readX_advancePc, readX_writeX_of_ne hr]
  · rw [writeX_eq_with_x]
    rfl

/-- Settles O9: the access check decides the arm, and the effect at EL2 and EL3 is a write of
WriteMerge to the register, whose low half is AArch32 IFSR, and an advance of pc. -/
theorem msrWritesRegister : Obligations.MsrWritesRegister := by
  unfold Obligations.MsrWritesRegister
  intro t s
  refine ⟨encodeWord_msr t, fun hfeat => exec_undefined_of _ (.inl hfeat),
    fun _ hel => exec_undefined_of _ (.inr (.inl hel)), exec_trap_of _,
    fun _ hel hbit => exec_undefined_of _ (.inr (.inr ⟨hel, hbit⟩)), fun hfeat hel => ?_⟩
  refine ⟨_, exec_msr_of_permitsAccess ⟨hfeat, hel⟩, fun _ => rfl, fun ht => ?_, fun _ => rfl,
    fun j hj hhard => ?_, rfl⟩
  · rw [ht]
    rfl
  · rw [ifsrAArch32_bit _ hj, State.advancePc_ifsr32Raw, State.setIfsr32Raw_ifsr32Raw,
      writeMerge_bit, hhard, if_neg Bool.false_ne_true]

end Sys2Proof.Machine

/-! PROOFS. When an access is Undefined, and which arm decides (R81, R86). -/

namespace Sys2Proof.Machine

/-- An instruction is Undefined exactly where the check rejects its access. -/
theorem exec_undefined_iff (i : Instr) (s : State) :
    exec i s = .fault .undefined ↔ accessDecision s = .undefined := by
  rw [exec_eq_accessRegister]
  obtain ⟨hp, e⟩ | ⟨hd, e⟩ | ⟨hd, e⟩ := accessRegister_cases (accessEffect i) s
  · simp [e, (accessDecision_permitted_iff s).mpr hp]
  · simp [e, hd]
  · simp [e, hd]

/-- Settles O11: an instruction is Undefined exactly where the check rejects its access, and the
check rejects exactly the listed accesses. -/
theorem undefinedExactlyTheListedAccesses : Obligations.UndefinedExactlyTheListedAccesses := by
  unfold Obligations.UndefinedExactlyTheListedAccesses
  intro i s
  exact (exec_undefined_iff i s).trans (accessDecision_undefined_iff s)

/-- Settles O13: the feature and EL0 are tested before the NV controls, and at EL1 bit 0 of NVx()
picks the trap or Undefined. -/
theorem firstMatchingArmDecides : Obligations.FirstMatchingArmDecides := by
  unfold Obligations.FirstMatchingArmDecides
  intro i s
  refine ⟨fun _ _ => exec_undefined_of i (.inl rfl),
    fun _ => exec_undefined_of i (.inr (.inl rfl)), fun hfeat hel => ?_⟩
  cases hbit : (effectiveNVx s).getLsbD 0 with
  | false => exact exec_undefined_of i (.inr (.inr ⟨hel, hbit⟩))
  | true => exact exec_trap_of i hfeat hel hbit

end Sys2Proof.Machine

/-! PROOFS. What a step keeps, in one run and in two (R37, R39, R52). -/

namespace Sys2Proof.Machine

/-! ## What a completed instruction leaves outside the registers -/

/-- An instruction that completes had access, and is its effect. -/
theorem exec_next_eq_accessEffect {i : Instr} {s u : State} (h : exec i s = .next u) :
    s.permitsAccess ∧ u = accessEffect i s := by
  rw [exec_eq_accessRegister] at h
  exact accessRegister_next h

/-- Outside the register and the general registers either effect is the advance of pc. -/
theorem accessEffect_agrees_advancePc (i : Instr) (s : State) :
    agreeOutsideRegisters (accessEffect i s) s.advancePc := by
  cases i <;> simp [agreeOutsideRegisters, accessEffect]

/-- A completed step had access, and outside the register and the general registers it advances pc
and takes the environment's inputs. -/
theorem step_next_agrees {s s' : State} (h : step s = .next s') :
    s.permitsAccess ∧ agreeOutsideRegisters s' s.advancePc.takeInputs := by
  obtain ⟨i, u, -, hu, rfl⟩ := step_next_cases h
  obtain ⟨hp, rfl⟩ := exec_next_eq_accessEffect hu
  exact ⟨hp, agreeOutsideRegisters_takeInputs (accessEffect_agrees_advancePc i s)⟩

/-- A completed step advances pc and keeps the level, the count of draws, memory and the
configuration. -/
theorem step_next_frame {s s' : State} (h : step s = .next s') :
    s'.pc = s.pc + 4 ∧ s'.el = s.el ∧ s'.draws = s.draws ∧ s'.mem = s.mem ∧ s'.cfg = s.cfg := by
  obtain ⟨-, hpc, hel, -, -, -, hdraws, hmem, hcfg⟩ := step_next_agrees h
  exact ⟨by simpa using hpc, by simpa using hel, by simpa using hdraws, by simpa using hmem,
    by simpa using hcfg⟩

/-- The four parts of well-formedness (R51, R53, R92). -/
theorem State.wf_iff (s : State) :
    s.wf = true ↔ s.mem.wf = true ∧ wordAligned s.pc = true ∧ s.cfg.baseAligned = true ∧
      s.cfg.implementsLevel s.el = true := by
  simp [State.wf, and_assoc]

/-! ## The statements about one run -/

/-- Settles O41: a completed step keeps memory, the configuration and the level, and an advance by 4
keeps pc aligned. -/
theorem stepKeepsWellFormed : Obligations.StepKeepsWellFormed := by
  unfold Obligations.StepKeepsWellFormed
  intro s s' hwf h
  obtain ⟨hmem, hpc, hbase, hlevel⟩ := s.wf_iff.mp hwf
  obtain ⟨epc, eel, -, emem, ecfg⟩ := step_next_frame h
  rw [s'.wf_iff, epc, eel, emem, ecfg, wordAligned_add_four]
  exact ⟨hmem, hpc, hbase, hlevel⟩

/-- Settles O46: a completed step had access, and so began at EL2 or EL3. -/
theorem stepKeepsLevelConfigurationAndProgram :
    Obligations.StepKeepsLevelConfigurationAndProgram := by
  unfold Obligations.StepKeepsLevelConfigurationAndProgram
  intro s s' h
  obtain ⟨-, hel, hdraws, hmem, hcfg⟩ := step_next_frame h
  obtain ⟨⟨-, hlevel⟩, -⟩ := step_next_agrees h
  exact ⟨hel, hlevel, hcfg, hdraws, fun _ => by rw [hmem]⟩

/-- Settles O47: a completed step leaves pc + 4, which is modulo 2^64 in 64 bits. -/
theorem pcAdvancesByFour : Obligations.PcAdvancesByFour := by
  unfold Obligations.PcAdvancesByFour
  intro s s' h
  obtain ⟨hpc, -⟩ := step_next_frame h
  rw [hpc, BitVec.toNat_add]
  rfl

/-- Settles O44: MRS leaves the register as it was, and MSR sets it to WriteMerge of its source. -/
theorem onlyMsrChangesRegister : Obligations.OnlyMsrChangesRegister := by
  unfold Obligations.OnlyMsrChangesRegister
  intro s s' h hne
  obtain ⟨i, u, hf, hu, rfl⟩ := step_next_cases h
  obtain ⟨⟨-, hlevel⟩, ⟨t, rfl, rfl⟩ | ⟨t, rfl, rfl⟩⟩ := exec_next_cases hu
  · exact absurd (by simp) hne
  · exact ⟨hlevel, t, hf, by simp⟩

/-- Settles O45: MSR writes no general register, and MRS writes its destination alone; a write to
XZR is discarded. -/
theorem onlyMrsChangesGeneralRegisters : Obligations.OnlyMrsChangesGeneralRegisters := by
  unfold Obligations.OnlyMrsChangesGeneralRegisters
  intro s s' r h hne
  obtain ⟨i, u, hf, hu, rfl⟩ := step_next_cases h
  have hr : r ≠ 31 := fun h31 => hne (by rw [h31]; rfl)
  obtain ⟨-, ⟨t, rfl, rfl⟩ | ⟨t, rfl, rfl⟩⟩ := exec_next_cases hu
  · by_cases hrt : r = t
    · subst hrt
      exact ⟨hr, hf, by rw [readX_takeInputs, readX_advancePc, readX_writeX_self hr]⟩
    · exact absurd (by simp [readX_writeX_of_ne hrt]) hne
  · exact absurd (by simp) hne

/-! ## Two runs -/

/-- Either effect keeps two states alike outside the register and the general registers: there both
only advance pc. -/
theorem accessEffect_keeps_agreement {a b : State} (i : Instr) (h : agreeOutsideRegisters a b) :
    agreeOutsideRegisters (accessEffect i a) (accessEffect i b) := by
  obtain ⟨hpc, hel, hnv, heae, hup, hdr, hmem, hcfg⟩ := h
  cases i <;> simp [agreeOutsideRegisters, accessEffect, hpc, hel, hnv, heae, hup, hdr, hmem, hcfg]

/-- Settles O49: the fetch and the access check look at neither the register nor a general register,
and each effect and the taking of the inputs keep the agreement. -/
theorem stepKeepsAgreementOutsideRegisters : Obligations.StepKeepsAgreementOutsideRegisters := by
  unfold Obligations.StepKeepsAgreementOutsideRegisters
  intro a b hab
  have ⟨hpc, hel, hnv, _, _, _, hmem, hcfg⟩ := hab
  have hf : fetch a = fetch b := fetch_congr hpc hmem
  have hexec (i : Instr) : OutcomesAlike agreeOutsideRegisters (exec i a) (exec i b) := by
    rw [exec_eq_accessRegister, exec_eq_accessRegister]
    exact accessRegister_alike (accessDecision_congr hcfg hel hnv)
      (accessEffect_keeps_agreement i hab)
  have hstep := step_alike (R := agreeOutsideRegisters) hf
    (fun _ _ => agreeOutsideRegisters_takeInputs) fun i _ => hexec i
  refine ⟨hf, ?_⟩
  generalize step a = x, step b = y at hstep ⊢
  cases hstep with
  | next h => exact h
  | fault => rfl
  | refused => rfl

end Sys2Proof.Machine

/-! PROOFS. The decoder is the inverse of the encoder (R50, R62, R63, R66), and what the fetch makes
of it. -/

namespace Sys2Proof.Machine

/-! ## Words -/

/-- The word of an instruction decodes to it. -/
theorem decodeWord_encodeWord (i : Instr) : decodeWord (encodeWord i) = .instr i := by
  rw [decodeWord_eq_instr_iff]
  cases i with
  | mrsIfsr32El2 t =>
    obtain ⟨hform, hname, hread, hrt⟩ := Laws.EncodedFields.mrsIfsr32El2 t
    exact ⟨hform, hname, by rw [if_pos hread, hrt]⟩
  | msrIfsr32El2 t =>
    obtain ⟨hform, hname, hread, hrt⟩ := Laws.EncodedFields.msrIfsr32El2 t
    exact ⟨hform, hname, by rw [hread, if_neg Bool.false_ne_true, hrt]⟩

/-- One bit, as a field of width 1. -/
theorem ofBool_getLsbD {n : Nat} (w : BitVec n) (j : Nat) :
    BitVec.ofBool (w.getLsbD j) = w.extractLsb' j 1 := by
  refine BitVec.eq_of_getLsbD_eq fun i hi => ?_
  obtain rfl : i = 0 := by omega
  simp

/-- A word of the System register move form is put together again from its fields (R62). -/
theorem sysMoveWord_fields {w : Word32} (h : sysMoveForm w = true) :
    sysMoveWord (readBit w) (sysRegNameOf w) (rtOf w) = w := by
  simp only [sysMoveForm, Bool.and_eq_true, beq_iff_eq] at h
  obtain ⟨hfixed, hone⟩ := h
  have hone' : 1#1 = w.extractLsb' 20 1 := by rw [← ofBool_getLsbD, hone]; rfl
  have ho0 : (1#1 ++ w.extractLsb' 19 1).extractLsb' 0 1 = w.extractLsb' 19 1 :=
    BitVec.extractLsb'_append_eq_right
  simp only [sysMoveWord, sysRegNameOf, rtOf, readBit]
  rw [ho0, hone', ← hfixed, ofBool_getLsbD]
  iterate 8 rw [BitVec.extractLsb'_append_extractLsb'_eq_extractLsb' (by rfl)]
  exact BitVec.extractLsb'_eq_self

/-- A word decodes to an instruction exactly where it is that instruction's word. -/
theorem decodeWord_eq_instr_iff_eq_encodeWord {w : Word32} {i : Instr} :
    decodeWord w = .instr i ↔ w = encodeWord i := by
  refine ⟨fun h => ?_, fun h => h ▸ decodeWord_encodeWord i⟩
  obtain ⟨hform, hname, hi⟩ := decodeWord_eq_instr_iff.mp h
  have hw := sysMoveWord_fields hform
  rw [hname] at hw
  cases hread : readBit w with
  | true =>
    rw [hread] at hw hi
    exact hi ▸ hw.symm
  | false =>
    rw [hread] at hw hi
    exact hi ▸ hw.symm

/-- A word is its bits under the rows' mask and its Rt. -/
theorem word_eq_masked_or_rt (w : Word32) :
    w = w &&& 0xFFFFFFE0 ||| (rtOf w).zeroExtend 32 := by
  refine BitVec.eq_of_getLsbD_eq fun j hj => ?_
  have hmask : ∀ j : Fin 32, (0xFFFFFFE0 : Word32).getLsbD j = decide (5 ≤ j.1) := by decide
  have hrt : ((rtOf w).zeroExtend 32).getLsbD j = (decide (j < 5) && w.getLsbD j) := by
    simp [rtOf, BitVec.getLsbD_extractLsb', hj]
  rw [BitVec.getLsbD_or, BitVec.getLsbD_and, hrt, hmask ⟨j, hj⟩]
  by_cases h : j < 5
  · simp [h]
  · have h5 : 5 ≤ j := by omega
    simp [h, h5]

/-- The word of an instruction matches its row (R62, R63). -/
theorem encodeWord_matches_row (i : Instr) :
    encodeWord i &&& 0xFFFFFFE0 = 0xD53C5020 ∨ encodeWord i &&& 0xFFFFFFE0 = 0xD51C5020 := by
  cases i with
  | mrsIfsr32El2 t => exact .inl (by revert t; decide)
  | msrIfsr32El2 t => exact .inr (by revert t; decide)

/-- A word that is no instruction's is out of scope (R66). -/
theorem decodeWord_eq_notInScope {w : Word32} (h : ∀ i, decodeWord w ≠ .instr i) :
    decodeWord w = .notInScope w := by
  unfold decodeWord at h ⊢
  split
  · rename_i hrow
    rw [if_pos hrow] at h
    split at h <;> exact absurd rfl (h _)
  · rfl

/-! ## Bytes -/

/-- Bytes decode to an instruction exactly where their first four make a word that does. -/
theorem decodeBytes_eq_instr_iff {b0 b1 b2 b3 : Byte} {rest rest' : List Byte} {i : Instr} :
    decodeBytes (b0 :: b1 :: b2 :: b3 :: rest) = .instr i rest' ↔
      decodeWord (wordOfBytes b0 b1 b2 b3) = .instr i ∧ rest = rest' := by
  rw [decodeBytes]
  cases decodeWord (wordOfBytes b0 b1 b2 b3) <;> simp

/-- The bytes of a word decode to an instruction exactly where the word does. -/
theorem decodeBytes_bytesOfWord_iff {w : Word32} {rest rest' : List Byte} {i : Instr} :
    decodeBytes (bytesOfWord w ++ rest) = .instr i rest' ↔
      decodeWord w = .instr i ∧ rest = rest' := by
  rw [bytesOfWord, List.cons_append, List.cons_append, List.cons_append, List.cons_append,
    decodeBytes_eq_instr_iff, wordOfBytes_bytesOfWord, List.nil_append]

/-- A table word decodes to an instruction only where the 32-bit word does. -/
theorem decodeWord_of_decodeTableWord {nbits w : Nat} {i : Instr}
    (h : decodeTableWord nbits w = some i) : decodeWord (tableWord nbits w) = .instr i := by
  unfold decodeTableWord at h
  split at h
  · rename_i j rest hj
    rw [← List.append_nil (bytesOfWord _)] at hj
    obtain ⟨hword, -⟩ := decodeBytes_bytesOfWord_iff.mp hj
    exact Option.some.inj h ▸ hword
  · cases h
  · cases h

/-- Settles O2: the bytes of a word are put together to that word, and the word of an instruction
decodes to it. -/
theorem decodeEncodeRoundTrip : Obligations.DecodeEncodeRoundTrip := by
  unfold Obligations.DecodeEncodeRoundTrip
  intro i rest
  exact decodeBytes_bytesOfWord_iff.mpr ⟨decodeWord_encodeWord i, rfl⟩

/-- Settles O1: the four byte strings are the encodings of those instructions, and the neighbour
names another register. -/
theorem workedWordsDecode : Obligations.WorkedWordsDecode :=
  ⟨decodeEncodeRoundTrip (.mrsIfsr32El2 1) [], decodeEncodeRoundTrip (.mrsIfsr32El2 31) [],
    decodeEncodeRoundTrip (.msrIfsr32El2 9) [], decodeEncodeRoundTrip (.msrIfsr32El2 30) [],
    by decide⟩

/-! ## The word at an address (R50, R51) -/

/-- Four bytes that have a value make the word at their address (R50). -/
theorem Memory.readWord_of_bytes {m : Memory} {a : Word64} {b0 b1 b2 b3 : Byte}
    (h0 : m.readByte a.toNat = some b0) (h1 : m.readByte (a + 1).toNat = some b1)
    (h2 : m.readByte (a + 2).toNat = some b2) (h3 : m.readByte (a + 3).toNat = some b3) :
    m.readWord a = some (wordOfBytes b0 b1 b2 b3) := by
  simp only [readWord, h0, h1, h2, h3]

/-- Where a byte of the word has no value there is no word. -/
theorem Memory.readWord_eq_none {m : Memory} {a : Word64} {k : Nat} (hk : k < 4)
    (h : m.readByte (a + BitVec.ofNat 64 k).toNat = none) : m.readWord a = none := by
  unfold readWord
  split
  · rename_i b0 b1 b2 b3 h0 h1 h2 h3
    have hk' : k = 0 ∨ k = 1 ∨ k = 2 ∨ k = 3 := by omega
    obtain rfl | rfl | rfl | rfl := hk'
    · rw [BitVec.add_zero] at h
      exact absurd (h0.symm.trans h) (Option.some_ne_none _)
    · exact absurd (h1.symm.trans h) (Option.some_ne_none _)
    · exact absurd (h2.symm.trans h) (Option.some_ne_none _)
    · exact absurd (h3.symm.trans h) (Option.some_ne_none _)
  · rfl

/-- The four bytes of an aligned word stand at rising addresses, without a wrap. -/
theorem toNat_add_of_aligned {a : Word64} (ha : a.toNat % 4 = 0) {k : Nat} (hk : k < 4) :
    (a + BitVec.ofNat 64 k).toNat = a.toNat + k := by
  have := a.isLt
  rw [BitVec.toNat_add, BitVec.toNat_ofNat]
  omega

/-- An address with its two low bits cleared is a multiple of 4 (R51). -/
theorem alignDown_mod_four (a : Word64) : (alignDown a).toNat % 4 = 0 := by
  have hmask : (~~~3 : Word64) &&& 3 = 0 := by decide
  have hlow : alignDown a &&& 3 = 0 := by
    rw [alignDown, BitVec.and_assoc, hmask]
    exact BitVec.and_zero
  have hnat := congrArg BitVec.toNat hlow
  rw [BitVec.toNat_and] at hnat
  exact (Nat.and_two_pow_sub_one_eq_mod _ 2).symm.trans hnat

/-! ## The fetch and the step, case by case -/

/-- The alignment check, on naturals (R51). -/
theorem wordAligned_iff (a : Word64) : wordAligned a = true ↔ a.toNat % 4 = 0 := by
  simp [wordAligned]

/-- A misaligned pc is refused (R51, D29). -/
theorem fetch_of_misaligned {s : State} (h : s.pc.toNat % 4 ≠ 0) :
    fetch s = .error (.misalignedPc s.pc) := by
  rw [fetch, if_neg (mt (wordAligned_iff s.pc).mp h)]

/-- An aligned pc where no word stands is refused (R102). -/
theorem fetch_of_no_word {s : State} (ha : s.pc.toNat % 4 = 0) (h : s.mem.readWord s.pc = none) :
    fetch s = .error (.noProgramWord s.pc) := by
  rw [fetch, if_pos ((wordAligned_iff s.pc).mpr ha), h]

/-- A word out of scope is refused (R66). -/
theorem fetch_of_notInScope {s : State} {w : Word32} (ha : s.pc.toNat % 4 = 0)
    (h : s.mem.readWord s.pc = some w) (hd : decodeWord w = .notInScope w) :
    fetch s = .error (.notInScope w) := by
  simp only [fetch, if_pos ((wordAligned_iff s.pc).mpr ha), h, hd]

/-- A word in scope is fetched as its instruction (R66). -/
theorem fetch_of_instr {s : State} {w : Word32} {i : Instr} (ha : s.pc.toNat % 4 = 0)
    (h : s.mem.readWord s.pc = some w) (hd : decodeWord w = .instr i) : fetch s = .ok i := by
  simp only [fetch, if_pos ((wordAligned_iff s.pc).mpr ha), h, hd]

/-- Where the fetch finds no instruction the step is refused for its reason. -/
theorem step_of_fetch_error {s : State} {r : Refusal} (h : fetch s = .error r) :
    step s = .refused r := by
  rw [step, h]

/-- What is left of an outcome when the environment has supplied its next inputs (R13, R40). -/
def inputsTakenAfter :
    Host.Outcome State Fault Refusal → Host.Outcome State Fault Refusal
  | .next u => .next u.takeInputs
  | .fault f => .fault f
  | .refused r => .refused r

/-- Where the fetch finds an instruction the step runs it and takes the next inputs. -/
theorem step_of_fetch_ok {s : State} {i : Instr} (h : fetch s = .ok i) :
    step s = inputsTakenAfter (exec i s) := by
  rw [step, h]
  rfl

/-! ## The statements about the fetch and the step -/

/-- Settles O3: a word that matches a row is the row's value with its own Rt, hence the word of that
instruction; the word of an instruction matches one of the rows, so any other word is none. -/
theorem decoderAcceptsTheTwoRows : Obligations.DecoderAcceptsTheTwoRows := by
  unfold Obligations.DecoderAcceptsTheTwoRows
  refine ⟨fun w h => ?_, fun w h => ?_, fun w hmrs hmsr => ?_⟩
  · refine decodeWord_eq_instr_iff_eq_encodeWord.mpr ?_
    rw [encodeWord_mrs, ← h]
    exact word_eq_masked_or_rt w
  · refine decodeWord_eq_instr_iff_eq_encodeWord.mpr ?_
    rw [encodeWord_msr, ← h]
    exact word_eq_masked_or_rt w
  · have hnone (i : Instr) : decodeWord w ≠ .instr i := fun hi => by
      rw [decodeWord_eq_instr_iff_eq_encodeWord.mp hi] at hmrs hmsr
      exact (encodeWord_matches_row i).elim hmrs hmsr
    have hd := decodeWord_eq_notInScope hnone
    exact ⟨hd, fun s ha hw => step_of_fetch_error (fetch_of_notInScope ha hw hd)⟩

/-- Settles O5: the fetch reads the four bytes' word and decodes it, and the step runs the
instruction and takes the head of the schedule. -/
theorem stepRunsDecodedInstruction : Obligations.StepRunsDecodedInstruction := by
  unfold Obligations.StepRunsDecodedInstruction
  intro s b0 b1 b2 b3 i ha h0 h1 h2 h3 hd
  obtain ⟨hword, -⟩ := decodeBytes_eq_instr_iff.mp hd
  rw [step_of_fetch_ok (fetch_of_instr ha (Memory.readWord_of_bytes h0 h1 h2 h3) hword)]
  cases exec i s with
  | next u =>
    obtain ⟨hup, e⟩ | ⟨i, rest, hup, e⟩ := u.takeInputs_cases
    · simp [inputsTakenAfter, hup, e]
    · simp [inputsTakenAfter, hup, e]
  | fault f => rfl
  | refused r => rfl

/-- Settles O6: the fetch tests the alignment of pc first, and an aligned word's bytes stand at the
four addresses from pc on. -/
theorem stepRefusesWhereNoProgramStands : Obligations.StepRefusesWhereNoProgramStands := by
  unfold Obligations.StepRefusesWhereNoProgramStands
  refine ⟨fun s h => step_of_fetch_error (fetch_of_misaligned h), fun s k ha hk h => ?_⟩
  rw [← toNat_add_of_aligned ha hk] at h
  exact step_of_fetch_error (fetch_of_no_word ha (Memory.readWord_eq_none hk h))

/-- Settles O7: the word placed is read back at an aligned pc, so it is the one fetched. -/
theorem placedInstructionRunsNext : Obligations.PlacedInstructionRunsNext := by
  unfold Obligations.PlacedInstructionRunsNext
  intro s w i h
  have hf : fetch (s.withFetchWord 32 w) = .ok i :=
    fetch_of_instr (alignDown_mod_four s.pc) (readWord_withFetchWord s 32 w)
      (decodeWord_of_decodeTableWord h)
  rw [step_of_fetch_ok hf]
  cases exec i (s.withFetchWord 32 w) with
  | next u => rfl
  | fault f => rfl
  | refused r => rfl

end Sys2Proof.Machine

/-! PROOFS. What a read and a write do at each bit of the register (R13, R35). -/

namespace Sys2Proof.Machine

/-! ## Laws of ReadView and WriteMerge -/

/-- A bit that is not hardwired is read as held and takes the written value. -/
theorem view_and_merge_bit_of_not_hardwired {c : Config} {e : Bool} {j : Nat}
    (h : (hardwired c e).getLsbD j = false) (raw v : Word64) :
    (readView c e raw).getLsbD j = raw.getLsbD j ∧
      (writeMerge c e raw v).getLsbD j = v.getLsbD j := by
  simp [readView_bit, writeMerge_bit, h]

/-- A hardwired bit reads 0 and keeps its raw value on a write. -/
theorem view_and_merge_bit_of_hardwired {c : Config} {e : Bool} {j : Nat}
    (h : (hardwired c e).getLsbD j = true) (raw v : Word64) :
    (readView c e raw).getLsbD j = false ∧
      (writeMerge c e raw v).getLsbD j = raw.getLsbD j := by
  simp [readView_bit, writeMerge_bit, h]

/-- A write keeps the hardwired bits. -/
theorem writeMerge_and_hardwired (c : Config) (e : Bool) (raw v : Word64) :
    writeMerge c e raw v &&& hardwired c e = raw &&& hardwired c e := by
  refine word64_ext fun i _ => ?_
  rw [BitVec.getLsbD_and, BitVec.getLsbD_and, writeMerge_bit]
  cases (hardwired c e).getLsbD i <;> simp

/-- A write of 0 keeps the hardwired bits and clears every other. -/
theorem writeMerge_zero (c : Config) (e : Bool) (raw : Word64) :
    writeMerge c e raw 0 = raw &&& hardwired c e := by
  simp [writeMerge]

/-- A register that holds 0 reads 0. -/
theorem readView_zero (c : Config) (e : Bool) : readView c e 0 = 0 := by
  simp [readView]

/-- With every RES0 bit storage a read sees the raw value. -/
theorem readView_of_all_storage {c : Config} (h : c.res0Storage = BitVec.allOnes 64) (e : Bool)
    (raw : Word64) : readView c e raw = raw := by
  refine word64_ext fun i _ => ?_
  simp [readView_bit, hardwired_of_all_storage h e]

/-- Outside Res0Mask a read sees the raw value. -/
theorem readView_and_not_res0Mask (c : Config) (e : Bool) (raw : Word64) :
    readView c e raw &&& ~~~res0Mask c e = raw &&& ~~~res0Mask c e := by
  refine word64_ext fun i hi => ?_
  rw [BitVec.getLsbD_and, BitVec.getLsbD_and, BitVec.getLsbD_not, readView_bit,
    hardwired_bit c e hi]
  cases (res0Mask c e).getLsbD i <;> simp

/-- At a RES0 bit a read sees the raw bit where it is storage, and 0 elsewhere. -/
theorem readView_bit_of_res0 {c : Config} {e : Bool} {j : Nat} (hj : j < 64)
    (h : (res0Mask c e).getLsbD j = true) (raw : Word64) :
    (readView c e raw).getLsbD j = (c.res0Storage.getLsbD j && raw.getLsbD j) := by
  rw [readView_bit, hardwired_bit c e hj, h]
  simp [Bool.and_comm]

/-- At a bit that is RES0 under neither EAE, a read under one sees what was written under the
other. -/
theorem readView_writeMerge_bit_of_not_res0 {c : Config} {e e' : Bool} {j : Nat} (hj : j < 64)
    (h : (res0Mask c e).getLsbD j = false) (h' : (res0Mask c e').getLsbD j = false)
    (raw v : Word64) : (readView c e' (writeMerge c e raw v)).getLsbD j = v.getLsbD j := by
  have hw : (hardwired c e).getLsbD j = false := by rw [hardwired_bit c e hj, h]; rfl
  rw [readView_bit_of_not_res0 hj h']
  exact (view_and_merge_bit_of_not_hardwired hw raw v).2

/-! ## Which bits are RES0 -/

/-- Settles O25: the bits of Res0Mask by the layout rows, and at each bit a read and a write by
whether it is hardwired. -/
theorem res0BitsReadZeroOrStore : Obligations.Res0BitsReadZeroOrStore := by
  unfold Obligations.Res0BitsReadZeroOrStore
  intro c e raw v j hj
  have hw := hardwired_bit c e hj
  refine ⟨?_, fun h => ?_, fun h hs => ?_, fun h hs => ?_⟩
  · rw [res0Mask_bit c e hj, ← registerIsRes0_iff]
    simp [or_assoc]
  · exact view_and_merge_bit_of_not_hardwired (by rw [hw, h]; rfl) raw v
  · exact view_and_merge_bit_of_not_hardwired (by rw [hw, h, hs]; rfl) raw v
  · exact view_and_merge_bit_of_hardwired (by rw [hw, h, hs]; rfl) raw v

/-- Settles O29: the register is RES0 as a whole, so exactly its storage bits are not hardwired. -/
theorem wholeRegisterRes0WithoutEl2AndCondition :
    Obligations.WholeRegisterRes0WithoutEl2AndCondition := by
  unfold Obligations.WholeRegisterRes0WithoutEl2AndCondition
  intro c e raw v h2 hcond
  have hreg : registerIsRes0 c = true :=
    (registerIsRes0_iff c).mpr ⟨h2, fun ⟨h3, h1⟩ => by simp [h3, h1] at hcond⟩
  have hmask : res0Mask c e = BitVec.allOnes 64 := by rw [res0Mask, if_pos hreg]
  refine ⟨hmask, fun j hj => ?_⟩
  have hw : (hardwired c e).getLsbD j = !c.res0Storage.getLsbD j := by
    rw [hardwired_bit c e hj, hmask, BitVec.getLsbD_allOnes, decide_eq_true hj, Bool.true_and]
  rw [readView_bit, writeMerge_bit, hw]
  cases c.res0Storage.getLsbD j <;> simp

/-- The two layouts reserve the same bits but for 10, 5 and 4 (R14, R15). -/
theorem reserved_iff_of_not_eae_bit (j : Fin 64) (h10 : j.1 ≠ 10) (h5 : j.1 ≠ 5) (h4 : j.1 ≠ 4) :
    fieldAt (layoutRows true) j = some .reserved ↔
      fieldAt (layoutRows false) j = some .reserved := by
  revert j; decide

/-- A read gives the same under either EAE at every bit but 10, 5 and 4. -/
theorem readView_bit_eae {j : Nat} (hj : j < 64) (h10 : j ≠ 10) (h5 : j ≠ 5) (h4 : j ≠ 4)
    (c : Config) (raw : Word64) :
    (readView c true raw).getLsbD j = (readView c false raw).getLsbD j := by
  have hrows := reserved_iff_of_not_eae_bit ⟨j, hj⟩ h10 h5 h4
  have hmask : (res0Mask c true).getLsbD j = (res0Mask c false).getLsbD j := by
    rw [res0Mask_bit c true hj, res0Mask_bit c false hj, Bool.beq_eq_decide_eq,
      Bool.beq_eq_decide_eq, decide_eq_decide.mpr hrows]
  rw [readView_bit, readView_bit, hardwired_bit c true hj, hardwired_bit c false hj, hmask]

/-- A register that is not RES0 as a whole has EL2, or EL3 and an EL1 capable of AArch32 (R3). -/
theorem registerIsRes0_eq_false_iff (c : Config) :
    registerIsRes0 c = false ↔
      c.haveEL2 = true ∨ (c.haveEL3 = true ∧ c.el1AArch32Capable = true) := by
  unfold registerIsRes0
  cases c.haveEL2 <;> cases c.haveEL3 <;> cases c.el1AArch32Capable <;> decide

/-- FnV and LPAE are fields of both layouts (R17, R20). -/
theorem fieldAt_fnv_lpae (e : Bool) :
    fieldAt (layoutRows e) 16 = some .fnv ∧ fieldAt (layoutRows e) 9 = some .lpae := by
  cases e <;> decide

/-- In a register that is not RES0 as a whole FnV, LPAE and a classified ExT are never RES0. -/
theorem res0Mask_fnv_lpae_ext {c : Config} (hc : registerIsRes0 c = false) (e : Bool) :
    (res0Mask c e).getLsbD 16 = false ∧ (res0Mask c e).getLsbD 9 = false ∧
      (c.extClassification = true → (res0Mask c e).getLsbD 12 = false) := by
  obtain ⟨hfnv, hlpae⟩ := fieldAt_fnv_lpae e
  have hext := fieldAt_ext e
  exact ⟨res0Mask_field_bit hc (by decide) (by simp [hfnv]) (by simp [hfnv]),
    res0Mask_field_bit hc (by decide) (by simp [hlpae]) (by simp [hlpae]),
    fun h => res0Mask_field_bit hc (by decide) (by simp [hext]) fun _ => h⟩

end Sys2Proof.Machine

/-! PROOFS. The access check, its outcomes and what an access leaves alone (R52, R71 to R74, R82,
R92). -/

namespace Sys2Proof.Machine

/-! ## The outcomes by the access check -/

/-- An instruction completes where access is permitted, and then is its effect. -/
theorem exec_of_permitsAccess {i : Instr} {s : State} (h : s.permitsAccess) :
    exec i s = .next (accessEffect i s) := by
  rw [exec_eq_accessRegister, accessRegister_of_permitsAccess h]

/-- An instruction completes exactly where access is permitted. -/
theorem exec_completes_iff (i : Instr) (s : State) :
    (∃ u, exec i s = .next u) ↔ s.permitsAccess :=
  ⟨fun ⟨_, hu⟩ => (exec_next_eq_accessEffect hu).1, fun h => ⟨_, exec_of_permitsAccess h⟩⟩

/-- An instruction traps exactly where the check says so, to EL2 with code 0x18 (R82). -/
theorem exec_trap_iff (i : Instr) (s : State) (target : ExceptionLevel) (code : BitVec 6) :
    exec i s = .fault (.systemAccessTrap target code) ↔
      (target = .el2 ∧ code = 0x18) ∧ accessDecision s = .trapToEl2 := by
  rw [exec_eq_accessRegister]
  obtain ⟨hp, e⟩ | ⟨hd, e⟩ | ⟨hd, e⟩ := accessRegister_cases (accessEffect i) s
  · simp [e, (accessDecision_permitted_iff s).mpr hp]
  · simp [e, hd, eq_comm]
  · simp [e, hd]

/-- The check tests FEAT_AA32EL1, the level and bit 0 of NVx() alone (R74). -/
theorem accessDecision_eq_of_tested {a b : State} (hf : a.cfg.featAA32EL1 = b.cfg.featAA32EL1)
    (hl : a.el = b.el) (hn : (effectiveNVx a).getLsbD 0 = (effectiveNVx b).getLsbD 0) :
    accessDecision a = accessDecision b := by
  unfold accessDecision
  rw [hf, hl, hn]

/-- Settles O12: an instruction traps exactly where the check says so. -/
theorem trapInOneCaseOnly : Obligations.TrapInOneCaseOnly := by
  unfold Obligations.TrapInOneCaseOnly
  refine ⟨rfl, fun i s target code => ?_⟩
  rw [exec_trap_iff, accessDecision_trap_iff]

/-- Of two outcomes of one kind both are next states or neither is. -/
theorem OutcomesAlike.next_iff {R : State → State → Prop} {x y : Host.Outcome State Fault Refusal}
    (h : OutcomesAlike R x y) : (∃ u, x = .next u) ↔ ∃ u, y = .next u := by
  cases h <;> simp

/-- Of two outcomes of one kind both are the same fault or neither is. -/
theorem OutcomesAlike.fault_iff {R : State → State → Prop} {x y : Host.Outcome State Fault Refusal}
    (h : OutcomesAlike R x y) (f : Fault) : x = .fault f ↔ y = .fault f := by
  cases h <;> simp

/-- Settles O14: the check decides the two accesses alike, and no access is refused. -/
theorem outcomeKindDependsOnTestedStateOnly : Obligations.OutcomeKindDependsOnTestedStateOnly := by
  unfold Obligations.OutcomeKindDependsOnTestedStateOnly
  intro i j a b hf hl hn
  have halike : OutcomesAlike (fun _ _ => True) (exec i a) (exec j b) := by
    rw [exec_eq_accessRegister, exec_eq_accessRegister]
    exact accessRegister_alike (accessDecision_eq_of_tested hf hl hn) trivial
  have hrefused (k : Instr) (s : State) (r : Refusal) : exec k s ≠ .refused r := by
    rw [exec_eq_accessRegister]
    exact accessRegister_not_refused _ s r
  exact ⟨halike.next_iff, halike.fault_iff, fun r => ⟨hrefused i a r, hrefused j b r⟩⟩

/-- Settles O23: a step that fetches nothing is refused, and at EL2 and EL3 with the feature any
instruction fetched completes. -/
theorem noFaultAtEl2OrEl3 : Obligations.NoFaultAtEl2OrEl3 := by
  unfold Obligations.NoFaultAtEl2OrEl3
  intro s h
  rw [stepIsSafe]
  cases hf : fetch s with
  | error r => rw [step_of_fetch_error hf]
  | ok i =>
    rw [step_of_fetch_ok hf, exec_of_permitsAccess h]
    rfl

/-! ## NVx() and the implemented levels (R40, R92) -/

/-- Without EL2 bit 0 of NVx() is 0 (D7). -/
theorem effectiveNVx_bit_zero_of_no_el2 {s : State} (h : s.cfg.haveEL2 = false) :
    (effectiveNVx s).getLsbD 0 = false := by
  simp [effectiveNVx, h]

/-- With EL2 NVx() is the value supplied (R40). -/
theorem effectiveNVx_of_el2 {s : State} (h : s.cfg.haveEL2 = true) :
    effectiveNVx s = s.hcrNVx := by
  simp [effectiveNVx, h]

/-- Settles O39: with EL2 the value is the one supplied and D7 asks nothing of it; without EL2 its
bit 0 is 0, as D7 asks. -/
theorem nvxBitZeroNeedsEl2 : Obligations.NvxBitZeroNeedsEl2 := by
  unfold Obligations.NvxBitZeroNeedsEl2
  intro s
  refine ⟨effectiveNVx_bit_zero_of_no_el2, effectiveNVx_of_el2, ?_⟩
  cases h : s.cfg.haveEL2 with
  | false =>
    have hbit := effectiveNVx_bit_zero_of_no_el2 h
    simp only [Config.nvxAllowed, h, hbit]
    simp
  | true => simp [Config.nvxAllowed, h, effectiveNVx_of_el2 h]

/-- Settles O10: with EL2 bit 0 of the supplied value picks the trap or Undefined, and without EL2
that bit of NVx() is 0. -/
theorem el1ArmDependsOnBitZeroOnly : Obligations.El1ArmDependsOnBitZeroOnly := by
  unfold Obligations.El1ArmDependsOnBitZeroOnly
  intro t s hfeat hel
  refine ⟨fun v h2 hbit => ?_, fun v h2 hbit => ?_, fun h2 => ?_⟩
  · have hnv : (effectiveNVx { s with hcrNVx := v }).getLsbD 0 = true := by
      rwa [effectiveNVx_of_el2 (s := { s with hcrNVx := v }) h2]
    exact ⟨exec_trap_of _ hfeat hel hnv, exec_trap_of _ hfeat hel hnv⟩
  · have hnv : (effectiveNVx { s with hcrNVx := v }).getLsbD 0 = false := by
      rwa [effectiveNVx_of_el2 (s := { s with hcrNVx := v }) h2]
    exact ⟨exec_undefined_of _ (.inr (.inr ⟨hel, hnv⟩)),
      exec_undefined_of _ (.inr (.inr ⟨hel, hnv⟩))⟩
  · have hnv := effectiveNVx_bit_zero_of_no_el2 h2
    exact ⟨exec_undefined_of _ (.inr (.inr ⟨hel, hnv⟩)),
      exec_undefined_of _ (.inr (.inr ⟨hel, hnv⟩))⟩

/-- Settles O24: access is permitted at EL2 and EL3, and a well-formed state is at an implemented
level; with neither it is at EL0 or at EL1, where bit 0 of NVx() is then 0. -/
theorem accessCompletesAtImplementedLevelsOnly :
    Obligations.AccessCompletesAtImplementedLevelsOnly := by
  unfold Obligations.AccessCompletesAtImplementedLevelsOnly
  intro i s hwf
  obtain ⟨-, -, -, hlevel⟩ := s.wf_iff.mp hwf
  refine ⟨?_, fun h2 h3 => exec_undefined_of i (.inr ?_)⟩
  · have h2 : s.el = .el2 → s.cfg.haveEL2 = true := fun h => by rwa [h] at hlevel
    have h3 : s.el = .el3 → s.cfg.haveEL3 = true := fun h => by rwa [h] at hlevel
    rw [exec_completes_iff, State.permitsAccess, and_iff_right_of_imp h2, and_iff_right_of_imp h3]
  · cases hel : s.el with
    | el0 => exact .inl rfl
    | el1 => exact .inr ⟨rfl, effectiveNVx_bit_zero_of_no_el2 h2⟩
    | el2 => simp [hel, Config.implementsLevel, h2] at hlevel
    | el3 => simp [hel, Config.implementsLevel, h3] at hlevel

/-! ## Frames (R52, R70, R72) -/

/-- Settles O15: the effect of MRS writes x[t] and pc. -/
theorem mrsFrame : Obligations.MrsFrame := by
  unfold Obligations.MrsFrame
  intro t s u h
  obtain ⟨-, rfl⟩ := exec_next_eq_accessEffect h
  obtain ⟨-, hel, hnv, heae, hup, hdr, hmem, hcfg⟩ :=
    accessEffect_agrees_advancePc (.mrsIfsr32El2 t) s
  exact ⟨fun r hr => readX_writeX_of_ne hr _ s, writeX_ifsr32Raw _ _ _, hel, hnv, heae, hup, hdr,
    hcfg, fun k => congrArg (·.readByte k) hmem⟩

/-- Settles O16: the effect of MSR writes the register, which keeps its hardwired bits, and pc. -/
theorem msrFrame : Obligations.MsrFrame := by
  unfold Obligations.MsrFrame
  intro t s u h
  obtain ⟨-, rfl⟩ := exec_next_eq_accessEffect h
  exact ⟨fun _ => rfl, writeMerge_and_hardwired _ _ _ _, rfl, rfl, rfl, rfl, rfl, rfl, fun _ => rfl⟩

/-- A register write leaves memory alone, whatever memory it is. -/
theorem writeX_with_mem (t : RegNum) (v : Word64) (s : State) (m : Memory) :
    writeX t v { s with mem := m } = { writeX t v s with mem := m } := by
  unfold writeX
  split <;> rfl

/-- Either effect leaves memory alone, whatever memory it is. -/
theorem accessEffect_with_mem (i : Instr) (s : State) (m : Memory) :
    accessEffect i { s with mem := m } = { accessEffect i s with mem := m } := by
  cases i with
  | mrsIfsr32El2 t => exact congrArg State.advancePc (writeX_with_mem t _ s m)
  | msrIfsr32El2 t => rfl

/-- Settles O17: neither the access check nor an effect looks at memory. -/
theorem instructionsIgnoreMemory : Obligations.InstructionsIgnoreMemory := by
  unfold Obligations.InstructionsIgnoreMemory
  intro i s m
  have hd : accessDecision { s with mem := m } = accessDecision s :=
    accessDecision_congr rfl rfl rfl
  rw [exec_eq_accessRegister, exec_eq_accessRegister, accessRegister, accessRegister, hd,
    accessEffect_with_mem]
  cases accessDecision s with
  | undefined => rfl
  | trapToEl2 => rfl
  | permitted => rfl

end Sys2Proof.Machine

/-! PROOFS. Sequences of accesses where access is permitted: what a read gives after a write, after
a read and after a reset (R52, R55, R72, R76). -/

namespace Sys2Proof.Machine

/-! ## One access -/

/-- MRS completes where access is permitted: its destination holds the read view, and the register,
EAE and the configuration stay (R70). -/
theorem exec_mrs_reads_and_keeps (r : RegNum) {s : State} (h : s.permitsAccess) :
    ∃ v, exec (.mrsIfsr32El2 r) s = .next v ∧ v.permitsAccess ∧
      v.ifsr32Raw = s.ifsr32Raw ∧ v.eae = s.eae ∧ v.cfg = s.cfg ∧
      (∀ q : RegNum, q ≠ r → readX v q = readX s q) ∧
      (r ≠ 31 → readX v r = readView s.cfg s.eae s.ifsr32Raw) := by
  obtain ⟨v, hv, hread⟩ := exec_mrs_reads_view r h
  obtain ⟨hx, hraw, -, -, heae, -, -, hcfg, -⟩ := mrsFrame r s v hv
  exact ⟨v, hv, permitsAccess_of_exec_next hv, hraw, heae, hcfg, hx, hread⟩

/-- An MRS that follows an MSR, under any EAE, reads the view of what the write left (R70, R72). -/
theorem exec_mrs_after_msr {t : RegNum} {s u : State} (hu : exec (.msrIfsr32El2 t) s = .next u)
    (r : RegNum) (e : Bool) :
    ∃ v, exec (.mrsIfsr32El2 r) { u with eae := e } = .next v ∧
      (r ≠ 31 → readX v r =
        readView s.cfg e (writeMerge s.cfg s.eae s.ifsr32Raw (readX s t))) := by
  have hp : u.permitsAccess := permitsAccess_of_exec_next hu
  obtain ⟨v, hv, hread⟩ := exec_mrs_reads_view r (s := { u with eae := e }) hp
  obtain ⟨-, rfl⟩ := exec_next_eq_accessEffect hu
  exact ⟨v, hv, hread⟩

/-! ## Reads -/

/-- Settles O18: the first read leaves the register, EAE and the configuration, so the second sees
the same view. -/
theorem repeatedReadsAgree : Obligations.RepeatedReadsAgree := by
  unfold Obligations.RepeatedReadsAgree
  intro a b s h
  obtain ⟨u, hu, hpu, hraw, heae, hcfg, -, hua⟩ := exec_mrs_reads_and_keeps a h
  obtain ⟨v, hv, -, hraw', -, -, hkeep, hvb⟩ := exec_mrs_reads_and_keeps b hpu
  rw [hraw, heae, hcfg] at hvb
  refine ⟨u, v, hu, hv, hraw'.trans hraw, fun ha hb => ?_⟩
  have hsame : readX u a = readX v b := (hua ha).trans (hvb hb).symm
  refine ⟨hsame, ?_⟩
  by_cases hab : a = b
  · rw [hab]
  · exact (hkeep a hab).trans hsame

/-- Settles O26: the masks under the two values of EAE differ at three bits, and a read leaves the
register as it was, so the third read sees what the first did. -/
theorem eaeChangesThreeBitsOfARead : Obligations.EaeChangesThreeBitsOfARead := by
  unfold Obligations.EaeChangesThreeBitsOfARead
  refine ⟨fun c raw j hj hne => ?_, fun s i => ⟨rfl, rfl, by simp⟩, fun a b c s e h => ?_⟩
  · by_contra hbits
    obtain ⟨h10, h5, h4⟩ : j ≠ 10 ∧ j ≠ 5 ∧ j ≠ 4 := by simpa using hbits
    exact hne (readView_bit_eae hj h10 h5 h4 c raw)
  · obtain ⟨u, hu, hpu, huraw, -, hucfg, -, hread⟩ := exec_mrs_reads_and_keeps a h
    obtain ⟨v, hv, hpv, hvraw, -, hvcfg, -, -⟩ :=
      exec_mrs_reads_and_keeps b (s := { u with eae := e }) hpu
    obtain ⟨w, hw, -, hwraw, -, -, -, hread'⟩ :=
      exec_mrs_reads_and_keeps c (s := { v with eae := s.eae }) hpv
    have hraw : v.ifsr32Raw = s.ifsr32Raw := hvraw.trans huraw
    have hcfg : v.cfg = s.cfg := hvcfg.trans hucfg
    refine ⟨u, v, w, hu, hv, hw, hwraw.trans hraw, fun ha hc => ?_⟩
    rw [hread ha, hread' hc, hraw, hcfg]

/-! ## A read after a write -/

/-- Settles O19: under the same EAE the read view of what was written (law L1), and under another
the written bit, or the old one where the write found it hardwired. -/
theorem readAfterWriteReturnsWritten : Obligations.ReadAfterWriteReturnsWritten := by
  unfold Obligations.ReadAfterWriteReturnsWritten
  intro t r s h
  obtain ⟨u, v, hu, hv, hread⟩ := exec_msr_mrs_reads_view t r h
  refine ⟨u, hu, ⟨v, hv, hread⟩, fun e => ?_⟩
  obtain ⟨w, hw, hread'⟩ := exec_mrs_after_msr hu r e
  refine ⟨w, hw, fun hr j _ => ?_⟩
  rw [hread' hr, readView_bit, writeMerge_bit, Bool.and_comm]

/-- Settles O20: the read gives the read view of what was written, which is exact outside Res0Mask
and at storage bits. -/
theorem writeReadRoundTrip : Obligations.WriteReadRoundTrip := by
  unfold Obligations.WriteReadRoundTrip
  intro t r s h
  obtain ⟨u, v, hu, hv, hread⟩ := exec_msr_mrs_reads_view t r h
  refine ⟨u, v, hu, hv, fun hr => by rw [hr]; exact readX_xzr v, fun hr => ?_⟩
  rw [hread hr]
  exact ⟨fun hall => readView_of_all_storage hall _ _, readView_and_not_res0Mask _ _ _,
    fun j hj hres0 => readView_bit_of_res0 hj hres0 _⟩

/-- Settles O22: XZR reads 0, so the write clears what is not hardwired and the read sees 0. -/
theorem msrFromZeroRegisterClears : Obligations.MsrFromZeroRegisterClears := by
  unfold Obligations.MsrFromZeroRegisterClears
  intro r s h
  obtain ⟨u, v, hu, hv, hread⟩ := exec_msr_mrs_reads_view 31 r h
  have hxzr : readX s 31 = 0 := readX_xzr s
  rw [hxzr, readView_zero] at hread
  refine ⟨u, v, hu, hv, ?_, ?_⟩
  · obtain ⟨-, rfl⟩ := exec_next_eq_accessEffect hu
    exact (readView_writeMerge _ _ _ _).trans (readView_zero _ _)
  · by_cases hr : r = 31
    · rw [hr]
      exact readX_xzr v
    · exact hread hr

/-- Settles O27: bits 16 and 9, and bit 12 where it is a field, are RES0 under neither EAE. -/
theorem fnvExtLpaeArePlainStorage : Obligations.FnvExtLpaeArePlainStorage := by
  unfold Obligations.FnvExtLpaeArePlainStorage
  intro t r s e h hcond
  have hc : registerIsRes0 s.cfg = false := (registerIsRes0_eq_false_iff s.cfg).mpr hcond
  obtain ⟨hfnv, hlpae, hext⟩ := res0Mask_fnv_lpae_ext hc s.eae
  obtain ⟨hfnv', hlpae', hext'⟩ := res0Mask_fnv_lpae_ext hc e
  have hu := exec_msr_of_permitsAccess (t := t) h
  obtain ⟨v, hv, hread⟩ := exec_mrs_after_msr hu r e
  refine ⟨_, v, hu, hv, fun hr => ?_⟩
  rw [hread hr]
  exact ⟨readView_writeMerge_bit_of_not_res0 (by decide) hfnv hfnv' _ _,
    readView_writeMerge_bit_of_not_res0 (by decide) hlpae hlpae' _ _,
    fun hx => readView_writeMerge_bit_of_not_res0 (by decide) (hext hx) (hext' hx) _ _⟩

/-! ## A write after a read, the AArch32 view, and a reset -/

/-- Settles O21: writing back the read view restores the raw value (law L2), and XZR saves nothing,
so the write is of 0. -/
theorem saveRestoreIsExact : Obligations.SaveRestoreIsExact := by
  unfold Obligations.SaveRestoreIsExact
  intro t s h
  obtain ⟨u, hu, hpu, hraw, heae, hcfg, -, hread⟩ := exec_mrs_reads_and_keeps t h
  refine ⟨u, _, hu, exec_msr_of_permitsAccess hpu, fun ht => ?_, fun ht => ?_⟩
  · rw [State.advancePc_ifsr32Raw, State.setIfsr32Raw_ifsr32Raw, hread ht, hraw, heae, hcfg,
      writeMerge_readView]
  · have hxzr : readX u t = 0 := by rw [ht]; exact readX_xzr u
    rw [State.advancePc_ifsr32Raw, State.setIfsr32Raw_ifsr32Raw, hxzr, hraw, heae, hcfg,
      writeMerge_zero]

/-- Settles O30: the AArch32 view is the low half of the register, which MSR sets at every bit that
is not hardwired. -/
theorem msrWritesAArch32Ifsr : Obligations.MsrWritesAArch32Ifsr := by
  unfold Obligations.MsrWritesAArch32Ifsr
  intro t s h
  refine ⟨_, exec_msr_of_permitsAccess h, fun j hj => ⟨ifsrAArch32_bit _ hj, fun hhard => ?_⟩⟩
  rw [ifsrAArch32_bit _ hj]
  exact (view_and_merge_bit_of_not_hardwired hhard _ _).2

/-- Settles O37: the register holds the draw, and a read sees it less the hardwired bits. -/
theorem firstReadAfterReset : Obligations.FirstReadAfterReset := by
  unfold Obligations.FirstReadAfterReset
  intro t launch h
  obtain ⟨u, hu, hread⟩ := exec_mrs_reads_view t (s := launch.warmReset) h
  refine ⟨u, hu, fun j ht _ => ?_⟩
  rw [hread ht, readView_bit, State.warmReset_ifsr32Raw, State.warmReset_cfg, State.warmReset_eae,
    Bool.and_comm]

end Sys2Proof.Machine

/-! PROOFS. Reading a register value as a fault record: the kinds, the reserved codes, the quoted
meanings, and what hardware can record (R25, R32 to R34, R89). -/

namespace Sys2Proof.Machine

/-! ## The kind of each code -/

/-- A row of R23 is read as its kind in every implementation. -/
theorem fsKind_of_mem_fsTable (ras : Bool) : ∀ row ∈ fsTable, fsKind ras row.1 = row.2 := by
  revert ras; decide

/-- A row of R24 is read as its kind without FEAT_RAS. -/
theorem fsKind_of_mem_fsTableNoRas : ∀ row ∈ fsTableNoRas, fsKind false row.1 = row.2 := by
  decide

/-- A row of R30 is read as its kind in every implementation. -/
theorem statusKind_of_mem_statusTable (ras : Bool) :
    ∀ row ∈ statusTable, statusKind ras row.1 = row.2 := by
  revert ras; decide

/-- A row of R31 is read as its kind without FEAT_RAS. -/
theorem statusKind_of_mem_statusTableNoRas :
    ∀ row ∈ statusTableNoRas, statusKind false row.1 = row.2 := by
  decide

/-- Settles O32: the lists are the model's tables, and a reading depends on the value through its
code. -/
theorem interpNamesListedCodes : Obligations.InterpNamesListedCodes := by
  unfold Obligations.InterpNamesListedCodes
  intro v
  refine ⟨fun ras row hrow hv => ?_, fun row hrow hv => ?_, fun ras row hrow hv => ?_,
    fun row hrow hv => ?_, fun e ras => ⟨rfl, rfl, rfl, rfl⟩⟩
  · rw [interp_short_kind, hv]
    exact fsKind_of_mem_fsTable ras row hrow
  · rw [interp_short_kind, hv]
    exact fsKind_of_mem_fsTableNoRas row hrow
  · rw [interp_long_kind, hv]
    exact statusKind_of_mem_statusTable ras row hrow
  · rw [interp_long_kind, hv]
    exact statusKind_of_mem_statusTableNoRas row hrow

/-! ## The reserved codes (R25, R32) -/

/-- An FS code is reserved exactly where R25 lists it, or is a parity or ECC code with FEAT_RAS. -/
theorem fsKind_eq_reserved_iff (ras : Bool) (c : BitVec 5) :
    fsKind ras c = .reserved ↔
      c ∈ fsReserved ∨ (ras = true ∧ c ∈ [0b11001#5, 0b11100#5, 0b11110#5]) := by
  revert ras c; decide

/-- A STATUS code is reserved exactly where R32 lists it, or is a parity or ECC code with
FEAT_RAS. -/
theorem statusKind_eq_reserved_iff (ras : Bool) (c : BitVec 6) :
    statusKind ras c = .reserved ↔
      c ∈ statusReserved ∨
        (ras = true ∧ c ∈ [0b011000#6, 0b011101#6, 0b011110#6, 0b011111#6]) := by
  revert ras c; decide

/-- Settles O33: a reading depends on the value through its code. -/
theorem interpReservedExactlyTheListed : Obligations.InterpReservedExactlyTheListed := by
  unfold Obligations.InterpReservedExactlyTheListed
  intro ras v
  exact ⟨fsKind_eq_reserved_iff ras (fsOf v), statusKind_eq_reserved_iff ras (statusOf v)⟩

/-! ## The quoted meanings (R54, R89) -/

/-- In the Short layout's table a code has no quoted meaning exactly where it is reserved. -/
theorem meaningText_fsKind_eq_none_iff (ras : Bool) (c : BitVec 5) :
    meaningText .short (fsKind ras c) = none ↔ fsKind ras c = .reserved := by
  revert ras c; decide

/-- In the Long layout's table a code has no quoted meaning exactly where it is reserved. -/
theorem meaningText_statusKind_eq_none_iff (ras : Bool) (c : BitVec 6) :
    meaningText .long (statusKind ras c) = none ↔ statusKind ras c = .reserved := by
  revert ras c; decide

/-- In the layout in force a value has no quoted meaning exactly where it is read as Reserved. -/
theorem meaningText_interp_eq_none_iff (e ras : Bool) (v : Word64) :
    meaningText (layoutOf e) (interp e ras v).kind = none ↔ (interp e ras v).kind = .reserved := by
  cases e with
  | false => exact meaningText_fsKind_eq_none_iff ras (fsOf v)
  | true => exact meaningText_statusKind_eq_none_iff ras (statusOf v)

/-- A kind that is not Reserved and that a layout's table has no text for is never read in it. -/
theorem interp_kind_ne_of_no_text {e ras : Bool} {v : Word64} {k : FaultKind}
    (htext : meaningText (layoutOf e) k = none) (hk : k ≠ .reserved) :
    (interp e ras v).kind ≠ k := fun h =>
  hk (h ▸ (meaningText_interp_eq_none_iff e ras v).mp (h ▸ htext))

/-- Settles O34: each kind named is a blank cell of the layout's table, and a reading in a blank
cell is Reserved. -/
theorem layoutsNameTheirOwnFaults : Obligations.LayoutsNameTheirOwnFaults := by
  unfold Obligations.LayoutsNameTheirOwnFaults
  intro ras v
  refine ⟨fun l => ⟨interp_kind_ne_of_no_text rfl nofun, interp_kind_ne_of_no_text rfl nofun⟩,
    interp_kind_ne_of_no_text rfl nofun, interp_kind_ne_of_no_text rfl nofun,
    fun hmem => ?_, fun e => meaningText_interp_eq_none_iff e ras v⟩
  have hblank : ∀ k ∈ [FaultKind.translation .three, .accessFlag .three, .domain .three,
      .permission .three, .externalOnWalk .three, .parityOnWalk .three],
      meaningText .short k = none ∧ k ≠ .reserved := by decide
  obtain ⟨htext, hk⟩ := hblank _ hmem
  exact interp_kind_ne_of_no_text (e := false) (ras := ras) (v := v) htext hk rfl

/-! ## What hardware records (R34) -/

/-- No RES0 bit of the layout is set exactly where every bit of a reserved row is 0. -/
theorem and_layoutRes0_eq_zero_iff (e : Bool) (v : Word64) :
    v &&& layoutRes0 e = 0 ↔
      ∀ j : Nat, j < 64 → fieldAt (layoutRows e) j = some .reserved → v.getLsbD j = false := by
  have hbit (j : Nat) (hj : j < 64) : (v &&& layoutRes0 e).getLsbD j =
      (v.getLsbD j && fieldAt (layoutRows e) j == some .reserved) := by
    rw [BitVec.getLsbD_and, layoutRes0_eq_rows e ⟨j, hj⟩]
  refine ⟨fun h j hj hrow => ?_, fun h => word64_ext fun j hj => ?_⟩
  · have h0 := hbit j hj
    simpa [h, hrow] using h0
  · rw [hbit j hj]
    by_cases hrow : fieldAt (layoutRows e) j = some .reserved
    · simp [h j hj hrow]
    · simp [hrow]

/-- Settles O35: the clauses of HwRecorded are those listed, the first by the layout's rows. -/
theorem hardwareRecordedValues : Obligations.HardwareRecordedValues := by
  unfold Obligations.HardwareRecordedValues
  intro c e v
  rw [← and_layoutRes0_eq_zero_iff]
  simp only [hwRecorded, Bool.and_eq_true, Bool.or_eq_true, beq_iff_eq, bne_iff_ne,
    Bool.not_eq_true', fnvOf, extOf, lpaeOf, and_assoc, ne_eq,
    or_iff_not_imp_left, not_not, Bool.not_eq_true]

end Sys2Proof.Machine

/-! PROOFS. Resets, the AArch32 side, and the conventional syndrome of the trap (R41, R42, R83,
R97). -/

namespace Sys2Proof.Machine

/-! ## Resets -/

/-- Settles O36: a Warm reset draws the whole register, and the machine right after reset holds
draw 0 and has counted it. -/
theorem warmResetLeavesFieldsUnknown : Obligations.WarmResetLeavesFieldsUnknown := by
  unfold Obligations.WarmResetLeavesFieldsUnknown
  exact ⟨fun launch => ⟨rfl, Nat.lt_succ_self launch.draws⟩, 0, Nat.zero_lt_one, rfl⟩

/-- Settles O42: memory is empty, pc is BASE, and the level is EL3, which is implemented and permits
access. -/
theorem resetIsWellFormed : Obligations.ResetIsWellFormed := by
  unfold Obligations.ResetIsWellFormed
  exact ⟨State.reset.wf_iff.mpr ⟨Memory.wf_reset, rfl, rfl, rfl⟩, rfl, .inr rfl⟩

/-! ## The AArch32 side (R41) -/

/-- The AArch32 side can act exactly below EL2. -/
theorem envAArch32Enabled_iff (s : State) :
    envAArch32Enabled s = true ↔ s.el = .el0 ∨ s.el = .el1 := by
  unfold envAArch32Enabled
  cases s.el <;> simp

/-- Where it can act, the AArch32 side replaces bits [31:0]. -/
theorem envAArch32_of_enabled {s : State} (h : s.el = .el0 ∨ s.el = .el1) (v32 : Word32) :
    envAArch32 v32 s = some (s.setIfsr32Raw (s.ifsr32Raw.extractLsb' 32 32 ++ v32)) := by
  rw [envAArch32, if_pos ((envAArch32Enabled_iff s).mpr h)]

/-- At EL2 and EL3 the AArch32 side cannot act. -/
theorem envAArch32_of_not_enabled {s : State} (h : s.el = .el2 ∨ s.el = .el3) (v32 : Word32) :
    envAArch32 v32 s = none := by
  rw [envAArch32, if_neg]
  rw [envAArch32Enabled_iff]
  rcases h with h | h <;> simp [h]

/-- Settles O38: the new value is the old high half above the given low half. -/
theorem aArch32SideReplacesLowHalf : Obligations.AArch32SideReplacesLowHalf := by
  unfold Obligations.AArch32SideReplacesLowHalf
  intro v32 s
  refine ⟨fun h => envAArch32_of_not_enabled h v32,
    fun h => ⟨_, envAArch32_of_enabled h v32, BitVec.extractLsb'_append_eq_right, ?_, rfl⟩,
    fun u => ?_⟩
  · intro j hj
    have hlow : ¬ j < 32 := by omega
    have hoff : 32 + (j - 32) = j := by omega
    rw [State.setIfsr32Raw_ifsr32Raw, BitVec.getLsbD_append, if_neg hlow,
      BitVec.getLsbD_extractLsb', hoff]
    have hhigh : s.ifsr32Raw.getLsbD j = true → j - 32 < 32 := fun hbit => by
      have := BitVec.lt_of_getLsbD hbit
      omega
    simpa using hhigh
  · rw [envPrefetchAbort]
    cases hwRecorded s.cfg s.eae (v32.zeroExtend 64) <;> simp

/-! ## The syndrome of a trap (R83) -/

/-- The syndrome carries the code in bits [31:26], IL in [25] and the ISS in [24:0] (R83). -/
theorem trapEsr_fields (i : Instr) :
    (trapEsr i).extractLsb' 26 6 = 0x18 ∧ (trapEsr i).getLsbD 25 = true ∧
      (trapEsr i).extractLsb' 0 25 = trapIssOf i := by
  refine ⟨?_, ?_, BitVec.extractLsb'_append_eq_right⟩
  · rw [trapEsr, BitVec.extractLsb'_append_eq_of_le (by decide)]
    exact BitVec.extractLsb'_append_eq_of_le (xhi := sysAccessTrapCode) (xlo := 1#1) (by decide)
  · rw [trapEsr, BitVec.getLsbD_append, if_neg (by decide)]
    decide

/-- The syndrome of MRS, with Rt in bits [9:5] (R83). -/
theorem trapEsr_mrs (t : RegNum) :
    trapEsr (.mrsIfsr32El2 t) = 0x62331401 ||| (t.zeroExtend 32 <<< 5) := by
  revert t; decide

/-- The syndrome of MSR, with Rt in bits [9:5] (R83). -/
theorem trapEsr_msr (t : RegNum) :
    trapEsr (.msrIfsr32El2 t) = 0x62331400 ||| (t.zeroExtend 32 <<< 5) := by
  revert t; decide

/-- Settles O40: the words by the value of Rt, the fields by their places. -/
theorem trapSyndromeFields : Obligations.TrapSyndromeFields := by
  unfold Obligations.TrapSyndromeFields
  intro t s
  refine ⟨trapEsr_mrs t, trapEsr_msr t, fun i => ?_⟩
  obtain ⟨hec, hil, hiss⟩ := trapEsr_fields i
  exact ⟨hec, hil, hiss, rfl, rfl⟩

end Sys2Proof.Machine
